-- ==== Sys2Proof/Word.lean ====
section
/-! DEFINITION. The quantities the spec treats as bits (R5, R7), and the register index. -/

namespace Sys2Proof

/-- An 8-bit value: a general register, a memory cell, a timer (R11, R17, R20). -/
abbrev Byte := BitVec 8

/-- A 16-bit value: an instruction word, `pc`, `I`, a stack entry (R13, R14, R15, R45). -/
abbrev Word := BitVec 16

/-- A general register index, V0 to VF (R11).  The X and Y fields are 4 bits, so every field value
names a register (R46, R108). -/
abbrev Reg := Fin 16

/-- Register 15, which doubles as the only flag (R12). -/
abbrev VF : Reg := 15

end Sys2Proof
end

