-- ==== Sys2Proof/Config.lean ====
section
/-! DEFINITION. What an implementation fixes (the named parameters of R6 with their defaults) and the
one free value of the model, the random byte (R122). -/

namespace Sys2Proof

/-- `SHIFT_SOURCE` of R6: the register that SHR and SHL shift (R77, R79, D12). -/
inductive ShiftSource where
  | vx
  | vy
  deriving DecidableEq, Repr

/-- `KEY_INDEX_POLICY` of R6: what SKP and SKNP do when V[X] exceeds 15 (R90, R91, D5). -/
inductive KeyIndexPolicy where
  | fault
  | mask
  deriving DecidableEq, Repr

/-- Glyph 0 of the font, top row first: the one glyph whose bytes the document gives (R21). -/
def Config.glyphZero : Vector Byte 5 := #v[0xF0, 0x90, 0x90, 0x90, 0xF0]

/-- The default of `FONT[1..15]`: glyphs 1 to F of the table in R21, glyph 1 first.  PRESUMED: the spec
takes them from general knowledge (D19, log entry 9). -/
def Config.defaultGlyphs : Vector (Vector Byte 5) 15 := #v[
  #v[0x20, 0x60, 0x20, 0x20, 0x70],
  #v[0xF0, 0x10, 0xF0, 0x80, 0xF0],
  #v[0xF0, 0x10, 0xF0, 0x10, 0xF0],
  #v[0x90, 0x90, 0xF0, 0x10, 0x10],
  #v[0xF0, 0x80, 0xF0, 0x10, 0xF0],
  #v[0xF0, 0x80, 0xF0, 0x90, 0xF0],
  #v[0xF0, 0x10, 0x20, 0x40, 0x40],
  #v[0xF0, 0x90, 0xF0, 0x90, 0xF0],
  #v[0xF0, 0x90, 0xF0, 0x10, 0xF0],
  #v[0xF0, 0x90, 0xF0, 0x90, 0x90],
  #v[0xE0, 0x90, 0xE0, 0x90, 0xE0],
  #v[0xF0, 0x80, 0x80, 0x80, 0xF0],
  #v[0xE0, 0x90, 0x90, 0x90, 0xE0],
  #v[0xF0, 0x80, 0xF0, 0x80, 0xF0],
  #v[0xF0, 0x80, 0xF0, 0x80, 0x80]]

/-- The named parameters a model takes as arguments (R6).  `TICK_RATE` and `STEPS_PER_TICK` are not
here: no rule depends on them (R134).  `rnd` is the free value below. -/
structure Params where
  /-- `ZERO_FAMILY_EXACT` (R51, D9). -/
  zeroFamilyExact : Bool
  /-- `SHIFT_SOURCE` (R77, R79, D12). -/
  shiftSource : ShiftSource
  /-- `VF_LAST` (R70, D13). -/
  vfLast : Bool
  /-- `BLOCK_INCREMENTS_I` (R98, R99, D15). -/
  blockIncrementsI : Bool
  /-- `KEY_INDEX_POLICY` (R90, R91, D5). -/
  keyIndexPolicy : KeyIndexPolicy
  /-- `FONT[1..15]`, glyph 1 first, top row first (R21, D19). -/
  glyphs : Vector (Vector Byte 5) 15
  deriving DecidableEq, Repr

/-- Every parameter at the default R6 decides. -/
def Params.default : Params where
  zeroFamilyExact := false
  shiftSource := .vx
  vfLast := true
  blockIncrementsI := false
  keyIndexPolicy := .fault
  glyphs := Config.defaultGlyphs

/-- The number of memory cells: addresses 0 to 4095 (R20, R30). -/
abbrev Config.memSize : Nat := 4096

/-- The address of glyph 0 (R21). -/
abbrev Config.fontBase : Nat := 0x050

/-- The address LOAD copies the ROM to, and the entry point of a program (R26, R126). -/
abbrev Config.loadBase : Nat := 0x200

/-- The most ROM bytes LOAD copies: 4096 − 0x200 (R5, R126). -/
abbrev Config.romMax : Nat := 3584

/-- FREE VALUE: the byte the random source hands to draw number `n` of RND, when the outside world has
put none in `State.rndIn`.  It has no body, so nothing can be proved of its value: the random source is
outside the block and under no law (R86, R122, D21, U10; log entry 3). -/
opaque Config.rndByte : Nat → Byte

end Sys2Proof
end

