-- ==== Sys2Proof/Machine/State.lean ====
section
/-! DEFINITION. The state of the machine: every piece of state of 10_state.md, the state after RESET
(R26), and the reasons a step can stop.

The last five fields are the model's own (log entries 1 to 4): the parameters of R6, and the inputs and
outputs that R25 calls "not state of the block", held here because a step is a function of the state
alone. -/

namespace Sys2Proof.Machine

/-- A transaction on the block (R4, R10): STEP, issued to the engine, and what the outside world does
between STEPs (R136). -/
inductive Transaction where
  /-- STEP: one fetch, decode and execute (R56). -/
  | step
  /-- RESET (R125). -/
  | reset
  /-- LOAD(rom) (R126). -/
  | load (rom : List Byte)
  /-- TICK (R115). -/
  | tick
  /-- KEYS(k) (R117). -/
  | keys (k : Vector Bool 16)
  /-- FRAME_ACK (R119). -/
  | frameAck
  deriving DecidableEq, Repr

/-- Memory in canonical form: the cells that differ from what memory holds after RESET, addresses strictly
rising (log entry 10). -/
abbrev Memory := List Host.Cell

/-- The state (R10 to R25). -/
structure State where
  /-- V0 to VF (R11, R12). -/
  v : Vector Byte 16
  /-- The program counter (R13). -/
  pc : Word
  /-- The index register I (R14). -/
  i : Word
  /-- The stack pointer: how many return addresses the stack holds (R16). -/
  sp : Byte
  /-- The sixteen return addresses (R15). -/
  stack : Vector Word 16
  /-- The delay timer DT (R17). -/
  dt : Byte
  /-- The sound timer ST (R17). -/
  st : Byte
  /-- The dirty flag (R18). -/
  dirty : Bool
  /-- The sixteen key flags, true when pressed (R23). -/
  key : Vector Bool 16
  /-- The display: 32 rows, top first; bit x of a row is the cell at column x (R22, D28). -/
  fb : Vector (BitVec 64) 32
  /-- The 4096 bytes of memory (R20, R30). -/
  mem : Memory
  /-- 1 after any fault (R19). -/
  halted : Bool
  /-- The cause code of R102, 0 for none (R19). -/
  faultCause : BitVec 3
  /-- The address of the instruction whose STEP faulted (R19). -/
  faultPc : Word
  /-- The cause-specific value of R102 (R19). -/
  faultInfo : Word
  /-- MODEL'S OWN: the named parameters of R6, which nothing writes (log entry 1). -/
  params : Params
  /-- MODEL'S OWN: the transactions the outside world issues next, first first; when it is empty every
  step is a STEP (R10, R136; log entry 2). -/
  schedule : List Transaction
  /-- MODEL'S OWN: the bytes the random source has ready, first drawn first (R122; log entry 3). -/
  rndIn : List Byte
  /-- MODEL'S OWN: how many bytes RND has drawn, the argument of the free value (R122; log entry 3). -/
  rndDraws : Nat
  /-- MODEL'S OWN: the diagnostic events so far, oldest first (R121; log entry 4). -/
  diag : List Word
  deriving DecidableEq, Repr

/-- The state after RESET (R26, R125): every field of the block zero, memory holding the font and zero
elsewhere (no cell listed); the model's own fields at the values log entries 1 to 4 name. -/
def State.reset : State where
  v := Vector.replicate 16 0
  pc := 0
  i := 0
  sp := 0
  stack := Vector.replicate 16 0
  dt := 0
  st := 0
  dirty := false
  key := Vector.replicate 16 false
  fb := Vector.replicate 32 0
  mem := []
  halted := false
  faultCause := 0
  faultPc := 0
  faultInfo := 0
  params := Params.default
  schedule := []
  rndIn := []
  rndDraws := 0
  diag := []

/-- Why a step has no next state.  The faults the spec describes are not here: they are next states
(R101; log entry 6). -/
inductive Fault where
  /-- Raised by CALL and RET alone, when `sp` holds a value above 16, so that the stack entry they would
  use does not exist.  The spec says such values never occur and gives no effect (R15, R16, R27).  SAFE:
  the machine stops, in states no run from reset reaches (log entry 7). -/
  | noSuchStackEntry (sp : Byte)
  deriving DecidableEq, Repr

/-- Why an instruction has no meaning here. -/
inductive Refusal where
  /-- Raised by an arm of `exec` whose instruction has no meaning yet; no arm does.  SAFE: the machine
  stops. -/
  | notModelled (mnemonic : String)
  deriving DecidableEq, Repr

end Sys2Proof.Machine
end

