-- ==== Sys2Proof/Machine/Memory.lean ====
section
/-! DEFINITION. Memory (20_memory.md): what it holds after RESET, and reading and writing it one byte at a
time (R31, R38).  Every instruction checks its addresses first (R35, R39), so the two primitives are only
called for addresses 0 to 4095. -/

namespace Sys2Proof.Machine

/-- `FONT[g]`: glyph 0 as the document gives it, the others from the parameter (R21, R125). -/
def glyphOf (p : Params) (g : Fin 16) : Vector Byte 5 :=
  if g.val = 0 then Config.glyphZero else p.glyphs[g.val - 1]

/-- Byte `k` of the font table, 0 to 79: row `k % 5` of glyph `k / 5` (R21). -/
def fontByte (p : Params) (k : Nat) : Byte :=
  if h : k < 80 then
    (glyphOf p ⟨k / 5, by omega⟩)[k % 5]'(Nat.mod_lt _ (by decide))
  else 0

/-- What memory holds after RESET: the font table at 0x050 to 0x09F, zero elsewhere (R20, R26). -/
def resetByte (p : Params) (a : Nat) : Byte :=
  if 0x050 ≤ a ∧ a ≤ 0x09F then fontByte p (a - 0x050) else 0

/-- `MemRead(a, 1)` (R31): a cell that is not listed holds its reset value. -/
def Memory.read (p : Params) : Memory → Nat → Byte
  | [], a => resetByte p a
  | (a', b') :: m, a => if a = a' then b' else Memory.read p m a

/-- Memory without the cell at `a`, which then reads as after RESET. -/
def Memory.erase (a : Nat) : Memory → Memory
  | [] => []
  | (a', b') :: m => if a = a' then Memory.erase a m else (a', b') :: Memory.erase a m

/-- Put a cell in its place in address order. -/
def Memory.insert (a : Nat) (b : Byte) : Memory → Memory
  | [] => [(a, b)]
  | (a', b') :: m => if a < a' then (a, b) :: (a', b') :: m else (a', b') :: Memory.insert a b m

/-- `MemWrite(a, 1, b)` (R31), keeping the canonical form: a cell is listed only if it differs from its
reset value. -/
def Memory.write (p : Params) (m : Memory) (a : Nat) (b : Byte) : Memory :=
  if b = resetByte p a then Memory.erase a m else Memory.insert a b (Memory.erase a m)

/-- Write consecutive bytes upward from `a`: the stores of LD B, LD [I] and LOAD (R38). -/
def Memory.store (p : Params) (m : Memory) (a : Nat) : List Byte → Memory
  | [] => m
  | b :: bs => Memory.store p (Memory.write p m a b) (a + 1) bs

/-- The canonical form from address `lo` on: addresses strictly rising and inside the space, and no cell
equal to what an unlisted one reads as. -/
def Memory.wfFrom (p : Params) : Nat → Memory → Bool
  | _, [] => true
  | lo, (a, b) :: m =>
    decide (lo ≤ a) && decide (a < Config.memSize) && decide (b ≠ resetByte p a) &&
      Memory.wfFrom p (a + 1) m

/-- The canonical form of memory. -/
def Memory.wf (p : Params) (m : Memory) : Bool := Memory.wfFrom p 0 m

end Sys2Proof.Machine
end

