-- ==== Sys2Proof/Machine/Ops.lean ====
section
/-! DEFINITION. The named reads and updates of the state, and `raise`, the one fault mechanism (R101).
Every instruction is written over these. -/

namespace Sys2Proof.Machine

/-- What a step answers. -/
abbrev Result := Host.Outcome State Fault Refusal

/-! ## Registers, timers, display, keys -/

/-- `V[r]` (R8). -/
def State.reg (s : State) (r : Reg) : Byte := s.v[r.val]

/-- `V[r] <- b` (R8). -/
def State.setReg (s : State) (r : Reg) (b : Byte) : State := { s with v := s.v.set r.val b }

/-- Replace the whole register file: the block load of R99. -/
def State.setRegs (s : State) (v : Vector Byte 16) : State := { s with v := v }

/-- `pc <- w`. -/
def State.setPc (s : State) (w : Word) : State := { s with pc := w }

/-- `I <- w`. -/
def State.setI (s : State) (w : Word) : State := { s with i := w }

/-- `sp <- b`. -/
def State.setSp (s : State) (b : Byte) : State := { s with sp := b }

/-- `stack[k]` (R15). -/
def State.stackEntry (s : State) (k : Fin 16) : Word := s.stack[k.val]

/-- `stack[k] <- w` (R15). -/
def State.setStackEntry (s : State) (k : Fin 16) (w : Word) : State :=
  { s with stack := s.stack.set k.val w }

/-- `DT <- b`. -/
def State.setDt (s : State) (b : Byte) : State := { s with dt := b }

/-- `ST <- b`. -/
def State.setSt (s : State) (b : Byte) : State := { s with st := b }

/-- `dirty <- b`. -/
def State.setDirty (s : State) (b : Bool) : State := { s with dirty := b }

/-- `key[k]` (R23). -/
def State.pressed (s : State) (k : Fin 16) : Bool := s.key[k.val]

/-- Replace all sixteen key flags (R117). -/
def State.setKeys (s : State) (k : Vector Bool 16) : State := { s with key := k }

/-- The cell at column `x`, row `y` of a display (R22). -/
def cellOf (fb : Vector (BitVec 64) 32) (x : Fin 64) (y : Fin 32) : Bool := fb[y.val].getLsbD x.val

/-- `fb[x, y]` (R22). -/
def State.cell (s : State) (x : Fin 64) (y : Fin 32) : Bool := cellOf s.fb x y

/-- Replace the display. -/
def State.setFb (s : State) (fb : Vector (BitVec 64) 32) : State := { s with fb := fb }

/-! ## Memory -/

/-- `MemRead(a, 1)` (R31). -/
def State.readByte (s : State) (a : Nat) : Byte := Memory.read s.params s.mem a

/-- Write consecutive bytes upward from `a` (R38). -/
def State.storeBytes (s : State) (a : Nat) (bs : List Byte) : State :=
  { s with mem := Memory.store s.params s.mem a bs }

/-! ## Random byte and diagnostic channel -/

/-- The byte `rnd` the next RND consumes: the head of the supplied stream, else a free value (R122). -/
def State.rndNext (s : State) : Byte :=
  match s.rndIn with
  | [] => Config.rndByte s.rndDraws
  | b :: _ => b

/-- One byte has been consumed from the random source (R122). -/
def State.rndConsumed (s : State) : State :=
  { s with rndIn := s.rndIn.tail, rndDraws := s.rndDraws + 1 }

/-- `emit diag(w)` (R121): the event is appended to the list of events. -/
def State.emitDiag (s : State) (w : Word) : State := { s with diag := s.diag ++ [w] }

/-! ## Faults (60_exceptions.md) -/

/-- The fatal conditions (R102). -/
inductive FaultKind where
  /-- R103. -/
  | fetchOutOfRange
  /-- R104. -/
  | stackOverflow
  /-- R105. -/
  | stackUnderflow
  /-- R106. -/
  | memIndexOutOfRange
  /-- R107. -/
  | keyIndexOutOfRange
  deriving DecidableEq, Repr

/-- The cause code (R102). -/
def causeCode : FaultKind → BitVec 3
  | .fetchOutOfRange => 1
  | .stackOverflow => 2
  | .stackUnderflow => 3
  | .memIndexOutOfRange => 4
  | .keyIndexOutOfRange => 5

/-- The fault mechanism (R101) for a STEP whose instruction stands at `ipc`: only the fault registers and
`pc` change. -/
def State.raiseAt (s : State) (ipc : Word) (f : FaultKind) (info : Word) : State :=
  { s with
    halted := true
    faultCause := causeCode f
    faultPc := ipc
    faultInfo := info
    pc := ipc }

/-- The address of the instruction being executed: in the execute phase `pc` is `npc`, which is `ipc + 2`
(R8, R56; log entry 11). -/
def State.ipc (s : State) : Word := s.pc - 2

/-- `raise F(info)` from an instruction's rule (R8, R101). -/
def State.raise (s : State) (f : FaultKind) (info : Word) : State := s.raiseAt s.ipc f info

/-! ## Control flow -/

/-- `if c: pc <- npc + 2`, the common step of every skip (41_skip.md, R90, R91). -/
def State.skipIf (s : State) (c : Bool) : State := if c then s.setPc (s.pc + 2) else s

end Sys2Proof.Machine
end

