-- ==== Sys2Proof/Machine/Operands.lean ====
section
/-! DEFINITION. The operand forms: address immediates (R48), the byte sequence at I with its range check
(R39), the shift source (R77, R79), the key number (R90, R91), the sprite coordinates (R88). -/

namespace Sys2Proof.Machine

/-- NNN as an address, zero-extended to 16 bits (R48). -/
def addrOf (nnn : BitVec 12) : Word := nnn.setWidth 16

/-- A byte zero-extended to 16 bits, `zext_16` (R7). -/
def widen (b : Byte) : Word := b.setWidth 16

/-- `I` as the unbounded number the data addresses are counted from (R39). -/
def State.dataBase (s : State) : Nat := s.i.toNat

/-- Is the sequence of `count` bytes at I inside memory?  A sequence of none always is (R39). -/
def State.dataInRange (s : State) (count : Nat) : Bool :=
  decide (count = 0) || decide (s.dataBase + count - 1 ≤ 4095)

/-- The lowest out-of-range address of a sequence at I that is not in range: `max(I, 4096)` (R39). -/
def State.lowestOutOfRange (s : State) : Word := BitVec.ofNat 16 (max s.dataBase 4096)

/-- The range check that comes before every data access: the access's effect if its `count` bytes are in
range, else MemIndexOutOfRange with nothing changed (R39, R106). -/
def State.withData (s : State) (count : Nat) (effect : State) : State :=
  if s.dataInRange count then effect else s.raise .memIndexOutOfRange s.lowestOutOfRange

/-- I after a block transfer of `count` bytes: unchanged, or advanced modulo 65536 when
`BLOCK_INCREMENTS_I` (R98, R99). -/
def State.blockAdvance (s : State) (count : Nat) : State :=
  if s.params.blockIncrementsI then s.setI (s.i + BitVec.ofNat 16 count) else s

/-- The value SHR and SHL shift: V[X], or V[Y] when `SHIFT_SOURCE` is `VY` (R77, R79). -/
def State.shiftOperand (s : State) (x y : Reg) : Byte :=
  match s.params.shiftSource with
  | .vx => s.reg x
  | .vy => s.reg y

/-- The key SKP and SKNP test: the whole value of V[X] if it is at most 15; above that none under the
policy `fault`, the low nibble under `mask` (R90, R91). -/
def State.keyNumber (s : State) (x : Reg) : Option (Fin 16) :=
  if h : (s.reg x).toNat < 16 then some ⟨(s.reg x).toNat, h⟩
  else
    match s.params.keyIndexPolicy with
    | .fault => none
    | .mask => some ⟨(s.reg x).toNat % 16, Nat.mod_lt _ (by decide)⟩

/-- The keys LD Vx,K scans, in order: 1 to 15, never 0 (R92). -/
def scanOrder : List (Fin 16) := [1, 2, 3, 4, 5, 6, 7, 8, 9, 10, 11, 12, 13, 14, 15]

/-- The first pressed key of the scan (R92, D25). -/
def State.firstKey (s : State) : Option (Fin 16) := scanOrder.find? fun k => s.pressed k

/-- Column `c` of a sprite whose left edge is at the value `v`: `(v mod 64 + c) mod 64` (R88). -/
def column (v : Byte) (c : Nat) : Fin 64 := ⟨(v.toNat % 64 + c) % 64, Nat.mod_lt _ (by decide)⟩

/-- Row `r` of a sprite whose top edge is at the value `v`: `(v mod 32 + r) mod 32` (R88). -/
def row (v : Byte) (r : Nat) : Fin 32 := ⟨(v.toNat % 32 + r) % 32, Nat.mod_lt _ (by decide)⟩

/-- The address of the glyph of a value's low nibble: `0x050 + 5 * (v & 15)` (R96). -/
def glyphAddress (v : Byte) : Word := BitVec.ofNat 16 (Config.fontBase + 5 * (v &&& 0x0F).toNat)

/-- The hundreds, tens and ones digits of a value, each a byte (R97). -/
def decimalDigits (v : Byte) : List Byte :=
  [BitVec.ofNat 8 (v.toNat / 100), BitVec.ofNat 8 (v.toNat / 10 % 10), BitVec.ofNat 8 (v.toNat % 10)]

/-- The values of V0 to VX, in ascending order (R98). -/
def State.regsUpTo (s : State) (x : Reg) : List Byte := s.v.toList.take (x.val + 1)

/-- The register file after V0 to VX are loaded from the bytes at `a` upward (R99). -/
def State.loadedRegs (s : State) (x : Reg) (a : Nat) : Vector Byte 16 :=
  Vector.ofFn fun r : Fin 16 => if r.val ≤ x.val then s.readByte (a + r.val) else s.reg r

end Sys2Proof.Machine
end

