-- ==== Sys2Proof/Machine/Flags.lean ====
section
/-! DEFINITION. The flag VF: carry, NOT-borrow, the bit shifted out (R80), and the order of the result
write and the flag write (R70). -/

namespace Sys2Proof.Machine

/-- A truth value as the byte 1 or 0 that VF takes (R12). -/
def flagByte (c : Bool) : Byte := if c then 1 else 0

/-- The carry of an 8-bit addition: the sum, formed in 16 bits, exceeds 255 (R75). -/
def carryFlag (a b : Byte) : Byte := flagByte (decide ((widen a + widen b).toNat > 255))

/-- The low byte of the sum formed in 16 bits (R75). -/
def sumByte (a b : Byte) : Byte := (widen a + widen b).setWidth 8

/-- NOT borrow of `a - b`: 1 when the minuend is at least the subtrahend (R76, R80). -/
def notBorrowFlag (a b : Byte) : Byte := flagByte (decide (a.toNat ≥ b.toNat))

/-- `(a - b) mod 256`, as `trunc_8(a + 256 - b)` (R76). -/
def differenceByte (a b : Byte) : Byte := BitVec.ofNat 8 (a.toNat + 256 - b.toNat)

/-- Bit 0, the bit a right shift shifts out (R77). -/
def lowBitFlag (a : Byte) : Byte := a &&& 1

/-- Bit 7, the bit a left shift shifts out (R79). -/
def highBitFlag (a : Byte) : Byte := (a >>> 7) &&& 1

/-- Write the result to V[X] and the flag to VF, the flag last unless `VF_LAST` is false; both come from
the operands as they were before (R70). -/
def State.writeResultFlag (s : State) (x : Reg) (r f : Byte) : State :=
  if s.params.vfLast then (s.setReg x r).setReg VF f else (s.setReg VF f).setReg x r

end Sys2Proof.Machine
end

