-- ==== Sys2Proof/Machine/Alu.lean ====
section
/-! DEFINITION. The register ALU (43_alu.md): operands read first, then the result, then the flag (R70). -/

namespace Sys2Proof.Machine

/-- LD Vx,Vy (R71). -/
def execLdReg (x y : Reg) (s : State) : Result := .next (s.setReg x (s.reg y))

/-- OR Vx,Vy; no flag (R72). -/
def execOrReg (x y : Reg) (s : State) : Result := .next (s.setReg x (s.reg x ||| s.reg y))

/-- AND Vx,Vy; no flag (R73). -/
def execAndReg (x y : Reg) (s : State) : Result := .next (s.setReg x (s.reg x &&& s.reg y))

/-- XOR Vx,Vy; no flag (R74). -/
def execXorReg (x y : Reg) (s : State) : Result := .next (s.setReg x (s.reg x ^^^ s.reg y))

/-- ADD Vx,Vy with carry (R75). -/
def execAddReg (x y : Reg) (s : State) : Result :=
  .next (s.writeResultFlag x (sumByte (s.reg x) (s.reg y)) (carryFlag (s.reg x) (s.reg y)))

/-- SUB Vx,Vy with NOT-borrow: minuend V[X], subtrahend V[Y] (R76). -/
def execSubReg (x y : Reg) (s : State) : Result :=
  .next (s.writeResultFlag x (differenceByte (s.reg x) (s.reg y)) (notBorrowFlag (s.reg x) (s.reg y)))

/-- SHR Vx: shift right by one, VF the bit shifted out (R77). -/
def execShr (x y : Reg) (s : State) : Result :=
  .next (s.writeResultFlag x (s.shiftOperand x y >>> 1) (lowBitFlag (s.shiftOperand x y)))

/-- SUBN Vx,Vy: minuend V[Y], subtrahend V[X] (R78). -/
def execSubnReg (x y : Reg) (s : State) : Result :=
  .next (s.writeResultFlag x (differenceByte (s.reg y) (s.reg x)) (notBorrowFlag (s.reg y) (s.reg x)))

/-- SHL Vx: shift left by one, VF the bit shifted out (R79). -/
def execShl (x y : Reg) (s : State) : Result :=
  .next (s.writeResultFlag x (s.shiftOperand x y <<< 1) (highBitFlag (s.shiftOperand x y)))

end Sys2Proof.Machine
end

