-- ==== Sys2Proof/Machine/Block.lean ====
section
/-! DEFINITION. Font lookup, BCD and block transfer (48_font_bcd_block.md). -/

namespace Sys2Proof.Machine

/-- LD F,Vx (R96). -/
def execLdF (x : Reg) (s : State) : Result := .next (s.setI (glyphAddress (s.reg x)))

/-- LD B,Vx: three digits at I, I + 1, I + 2, or MemIndexOutOfRange (R97). -/
def execLdB (x : Reg) (s : State) : Result :=
  .next (s.withData 3 (s.storeBytes s.dataBase (decimalDigits (s.reg x))))

/-- LD [I],Vx: V0 to VX at I upward, or MemIndexOutOfRange (R98). -/
def execLdIVx (x : Reg) (s : State) : Result :=
  .next (s.withData (x.val + 1) ((s.storeBytes s.dataBase (s.regsUpTo x)).blockAdvance (x.val + 1)))

/-- LD Vx,[I]: V0 to VX from I upward, or MemIndexOutOfRange (R99). -/
def execLdVxI (x : Reg) (s : State) : Result :=
  .next (s.withData (x.val + 1) ((s.setRegs (s.loadedRegs x s.dataBase)).blockAdvance (x.val + 1)))

end Sys2Proof.Machine
end

