-- ==== Sys2Proof/Machine/DisplayFlow.lean ====
section
/-! DEFINITION. Display clear and flow control (40_display_flow.md): CLS, RET, JP, CALL.  As in every family file, a
meaning sees `pc` = `npc`, the address of the next instruction (R56). -/

namespace Sys2Proof.Machine

/-- CLS: every cell 0, `dirty` 1 (R60). -/
def execCls (s : State) : Result := .next ((s.setFb (Vector.replicate 32 0)).setDirty true)

/-- RET: StackUnderflow if `sp` = 0; else `sp <- sp - 1` and `pc <- stack[sp]` (R61).  A popped entry keeps
its value (R15).  The last branch is `sp` above 16, which never occurs (log entry 7). -/
def execRet (s : State) : Result :=
  if s.sp = 0 then .next (s.raise .stackUnderflow 0)
  else if h : s.sp.toNat - 1 < 16 then
    .next ((s.setSp (s.sp - 1)).setPc (s.stackEntry ⟨s.sp.toNat - 1, h⟩))
  else .fault (.noSuchStackEntry s.sp)

/-- JP NNN: `pc <- zext_16(NNN)` (R62). -/
def execJp (nnn : BitVec 12) (s : State) : Result := .next (s.setPc (addrOf nnn))

/-- CALL NNN: StackOverflow if `sp` = 16; else `stack[sp] <- npc`, `sp <- sp + 1`, `pc <- zext_16(NNN)`
(R63).  The last branch is `sp` above 16, which never occurs (log entry 7). -/
def execCall (nnn : BitVec 12) (s : State) : Result :=
  if s.sp = 16 then .next (s.raise .stackOverflow 16)
  else if h : s.sp.toNat < 16 then
    .next (((s.setStackEntry ⟨s.sp.toNat, h⟩ s.pc).setSp (s.sp + 1)).setPc (addrOf nnn))
  else .fault (.noSuchStackEntry s.sp)

end Sys2Proof.Machine
end

