-- ==== Sys2Proof/Machine/Draw.lean ====
section
/-! DEFINITION. Sprite draw (45_draw.md), pixel by pixel in the order of R87's pseudocode. -/

namespace Sys2Proof.Machine

/-- What a draw has built so far: the display, and whether an inverted cell held 1 (R87). -/
structure Canvas where
  fb : Vector (BitVec 64) 32
  hit : Bool
  deriving DecidableEq, Repr

/-- Invert one cell of a display: `fb[x, y] ^ 1` (R87). -/
def flipCell (fb : Vector (BitVec 64) 32) (x : Fin 64) (y : Fin 32) : Vector (BitVec 64) 32 :=
  fb.set y.val (fb[y.val] ^^^ BitVec.twoPow 64 x.val)

/-- One sprite bit: a 1 records a collision if its cell held 1 and inverts the cell, a 0 does nothing
(R87). -/
def plot (cv : Canvas) (x : Fin 64) (y : Fin 32) (bit : Bool) : Canvas :=
  if bit then ⟨flipCell cv.fb x y, cv.hit || cellOf cv.fb x y⟩ else cv

/-- Bit `c` of a sprite byte counted from the left, the most significant first (R87). -/
def spriteBit (b : Byte) (c : Nat) : Bool := b.getLsbD (7 - c)

/-- The eight bits of one sprite row, left to right (R87). -/
def plotRow (cv : Canvas) (vx : Byte) (y : Fin 32) (b : Byte) : Canvas :=
  (List.range 8).foldl (fun cv c => plot cv (column vx c) y (spriteBit b c)) cv

/-- The rows of a sprite, row `r` first, from the bytes given (R87). -/
def plotRows (cv : Canvas) (vx vy : Byte) : Nat → List Byte → Canvas
  | _, [] => cv
  | r, b :: bs => plotRows (plotRow cv vx (row vy r) b) vx vy (r + 1) bs

/-- The `n` sprite bytes at I, I + 1, ... (R87, R89). -/
def State.spriteBytes (s : State) (n : Nat) : List Byte :=
  (List.range n).map fun r => s.readByte (s.dataBase + r)

/-- The canvas after the whole sprite; V[X] and V[Y] are read before VF is reset (R88 c). -/
def State.drawn (s : State) (x y : Reg) (n : Nat) : Canvas :=
  plotRows ⟨s.fb, false⟩ (s.reg x) (s.reg y) 0 (s.spriteBytes n)

/-- DRW Vx,Vy,N (R87, R88, R89). -/
def execDrw (x y : Reg) (n : BitVec 4) (s : State) : Result :=
  .next (s.withData n.toNat
    (((s.setFb (s.drawn x y n.toNat).fb).setReg VF (flagByte (s.drawn x y n.toNat).hit)).setDirty true))

end Sys2Proof.Machine
end

