-- ==== Sys2Proof/Machine/Immediate.lean ====
section
/-! DEFINITION. Immediate load and add (42_immediate.md). -/

namespace Sys2Proof.Machine

/-- LD Vx,NN (R68). -/
def execLdImm (x : Reg) (nn : Byte) (s : State) : Result := .next (s.setReg x nn)

/-- ADD Vx,NN: modulo 256, VF unaffected (R69). -/
def execAddImm (x : Reg) (nn : Byte) (s : State) : Result := .next (s.setReg x (sumByte (s.reg x) nn))

end Sys2Proof.Machine
end

