-- ==== Sys2Proof/Machine/IndexRandom.lean ====
section
/-! DEFINITION. Index register and random (44_index_random.md). -/

namespace Sys2Proof.Machine

/-- LD I,NNN (R83). -/
def execLdI (nnn : BitVec 12) (s : State) : Result := .next (s.setI (addrOf nnn))

/-- JP V0,NNN: `pc <- zext_16(NNN) + zext_16(V[0])`, always V0 (R84). -/
def execJpV0 (nnn : BitVec 12) (s : State) : Result := .next (s.setPc (addrOf nnn + widen (s.reg 0)))

/-- RND Vx,NN: the random byte masked with NN; exactly one byte is consumed (R86, R122). -/
def execRnd (x : Reg) (nn : Byte) (s : State) : Result := .next (s.rndConsumed.setReg x (s.rndNext &&& nn))

/-- ADD I,Vx: modulo 65536, VF not written (R85). -/
def execAddI (x : Reg) (s : State) : Result := .next (s.setI (s.i + widen (s.reg x)))

end Sys2Proof.Machine
end

