-- ==== Sys2Proof/Machine/Keypad.lean ====
section
/-! DEFINITION. Keypad queries (46_keypad.md). -/

namespace Sys2Proof.Machine

/-- The common form of SKP and SKNP: skip when the key named by V[X] is in the state `want`, or
KeyIndexOutOfRange (R90, R91, R107). -/
def State.skipOnKey (s : State) (x : Reg) (want : Bool) : State :=
  match s.keyNumber x with
  | some k => s.skipIf (s.pressed k == want)
  | none => s.raise .keyIndexOutOfRange (widen (s.reg x))

/-- SKP Vx: skip if pressed (R90). -/
def execSkp (x : Reg) (s : State) : Result := .next (s.skipOnKey x true)

/-- SKNP Vx: skip if not pressed (R91). -/
def execSknp (x : Reg) (s : State) : Result := .next (s.skipOnKey x false)

/-- LD Vx,K: the first pressed key of 1 to 15, or retry by `pc <- npc - 2` (R92). -/
def execLdVxK (x : Reg) (s : State) : Result :=
  match s.firstKey with
  | some k => .next (s.setReg x (BitVec.ofNat 8 k.val))
  | none => .next (s.setPc (s.pc - 2))

end Sys2Proof.Machine
end

