-- ==== Sys2Proof/Machine/TimerIo.lean ====
section
/-! DEFINITION. Timer transfers (47_timer_io.md). -/

namespace Sys2Proof.Machine

/-- LD Vx,DT (R93). -/
def execLdVxDT (x : Reg) (s : State) : Result := .next (s.setReg x s.dt)

/-- LD DT,Vx (R94). -/
def execLdDTVx (x : Reg) (s : State) : Result := .next (s.setDt (s.reg x))

/-- LD ST,Vx (R95). -/
def execLdSTVx (x : Reg) (s : State) : Result := .next (s.setSt (s.reg x))

end Sys2Proof.Machine
end

