-- ==== Sys2Proof/Syntax.lean ====
section
/-! DEFINITION. The instructions: one constructor per row of the opcode map (R50), in its order. -/

namespace Sys2Proof

/-- The 34 instructions of R50.  `x` and `y` are the X and Y fields, `nn` the 8-bit immediate, `nnn` the
12-bit address, `n` the 4-bit sprite height (R46, R48). -/
inductive Instr where
  /-- `CLS` (R60). -/
  | cls
  /-- `RET` (R61). -/
  | ret
  /-- `JP NNN` (R62). -/
  | jp (nnn : BitVec 12)
  /-- `CALL NNN` (R63). -/
  | call (nnn : BitVec 12)
  /-- `SE Vx,NN` (R64). -/
  | seImm (x : Reg) (nn : Byte)
  /-- `SNE Vx,NN` (R65). -/
  | sneImm (x : Reg) (nn : Byte)
  /-- `SE Vx,Vy` (R66). -/
  | seReg (x y : Reg)
  /-- `LD Vx,NN` (R68). -/
  | ldImm (x : Reg) (nn : Byte)
  /-- `ADD Vx,NN` (R69). -/
  | addImm (x : Reg) (nn : Byte)
  /-- `LD Vx,Vy` (R71). -/
  | ldReg (x y : Reg)
  /-- `OR Vx,Vy` (R72). -/
  | orReg (x y : Reg)
  /-- `AND Vx,Vy` (R73). -/
  | andReg (x y : Reg)
  /-- `XOR Vx,Vy` (R74). -/
  | xorReg (x y : Reg)
  /-- `ADD Vx,Vy` (R75). -/
  | addReg (x y : Reg)
  /-- `SUB Vx,Vy` (R76). -/
  | subReg (x y : Reg)
  /-- `SHR Vx` (R77); `y` is read only when `SHIFT_SOURCE` is `VY`. -/
  | shr (x y : Reg)
  /-- `SUBN Vx,Vy` (R78). -/
  | subnReg (x y : Reg)
  /-- `SHL Vx` (R79); `y` is read only when `SHIFT_SOURCE` is `VY`. -/
  | shl (x y : Reg)
  /-- `SNE Vx,Vy` (R67). -/
  | sneReg (x y : Reg)
  /-- `LD I,NNN` (R83). -/
  | ldI (nnn : BitVec 12)
  /-- `JP V0,NNN` (R84). -/
  | jpV0 (nnn : BitVec 12)
  /-- `RND Vx,NN` (R86). -/
  | rnd (x : Reg) (nn : Byte)
  /-- `DRW Vx,Vy,N` (R87). -/
  | drw (x y : Reg) (n : BitVec 4)
  /-- `SKP Vx` (R90). -/
  | skp (x : Reg)
  /-- `SKNP Vx` (R91). -/
  | sknp (x : Reg)
  /-- `LD Vx,DT` (R93). -/
  | ldVxDT (x : Reg)
  /-- `LD Vx,K` (R92). -/
  | ldVxK (x : Reg)
  /-- `LD DT,Vx` (R94). -/
  | ldDTVx (x : Reg)
  /-- `LD ST,Vx` (R95). -/
  | ldSTVx (x : Reg)
  /-- `ADD I,Vx` (R85). -/
  | addI (x : Reg)
  /-- `LD F,Vx` (R96). -/
  | ldF (x : Reg)
  /-- `LD B,Vx` (R97). -/
  | ldB (x : Reg)
  /-- `LD [I],Vx` (R98). -/
  | ldIVx (x : Reg)
  /-- `LD Vx,[I]` (R99). -/
  | ldVxI (x : Reg)
  deriving DecidableEq, Repr

end Sys2Proof
end

