-- ==== Sys2Proof/WellFormed.lean ====
section
/-! DEFINITION. What is well formed: an instruction whose operands fit their fields (R46), and a word that
is the word of some instruction (R51 to R54).

Every operand of `Instr` has a type of exactly its field's width, so an ill-formed instruction cannot be
built and `Instr.WellFormed` holds of every term (`Laws.instr_wellFormed`).  What can be ill formed is a
WORD: `wordDefined` refuses the unknown words, family by family, with the text of R54.  It is written from
that table with plain division and remainder, apart from the decoder. -/

namespace Sys2Proof

/-- Every operand lies in the range its field can hold (R46, R48). -/
def Instr.WellFormed : Instr → Bool
  | .cls | .ret => true
  | .jp nnn | .call nnn | .ldI nnn | .jpV0 nnn => decide (nnn.toNat < 4096)
  | .seImm x nn | .sneImm x nn | .ldImm x nn | .addImm x nn | .rnd x nn =>
    decide (x.val < 16) && decide (nn.toNat < 256)
  | .seReg x y | .sneReg x y | .ldReg x y | .orReg x y | .andReg x y | .xorReg x y | .addReg x y
  | .subReg x y | .shr x y | .subnReg x y | .shl x y => decide (x.val < 16) && decide (y.val < 16)
  | .drw x y n => decide (x.val < 16) && decide (y.val < 16) && decide (n.toNat < 16)
  | .skp x | .sknp x | .ldVxDT x | .ldVxK x | .ldDTVx x | .ldSTVx x | .addI x | .ldF x | .ldB x
  | .ldIVx x | .ldVxI x => decide (x.val < 16)

/-- Does the word with primary nibble `p`, low nibble `n`, low byte `nn` match a pattern of R50?  R54's
table of unknown words, negated; `exact` is `ZERO_FAMILY_EXACT` (R51). -/
def wordDefined (exact : Bool) (w : Word) : Bool :=
  let p := w.toNat / 0x1000
  let n := w.toNat % 0x10
  let nn := w.toNat % 0x100
  if p = 0x0 then
    if exact then w.toNat = 0x00E0 || w.toNat = 0x00EE else n = 0x0 || n = 0xE
  else if p = 0x5 then n = 0
  else if p = 0x8 then [0, 1, 2, 3, 4, 5, 6, 7, 0xE].contains n
  else if p = 0x9 then n = 0
  else if p = 0xE then [0x9E, 0xA1].contains nn
  else if p = 0xF then [0x07, 0x0A, 0x15, 0x18, 0x1E, 0x29, 0x33, 0x55, 0x65].contains nn
  else true

end Sys2Proof
end

