-- ==== Sys2Proof/Decode.lean ====
section
/-! DEFINITION. Decoding (R45 to R56): the fields of a word, the word of two bytes, the instruction of a
word or the name of why there is none; then the encoder, and R50's match and mask columns. -/

namespace Sys2Proof

/-! ## Fields (R46) -/

/-- The primary opcode, `w[15:12]`. -/
def fieldP (w : Word) : BitVec 4 := w.extractLsb' 12 4

/-- The register index X, `w[11:8]`. -/
def fieldX (w : Word) : Reg := ⟨(w.extractLsb' 8 4).toNat, (w.extractLsb' 8 4).isLt⟩

/-- The register index Y, `w[7:4]`. -/
def fieldY (w : Word) : Reg := ⟨(w.extractLsb' 4 4).toNat, (w.extractLsb' 4 4).isLt⟩

/-- The immediate or sub-discriminator N, `w[3:0]`. -/
def fieldN (w : Word) : BitVec 4 := w.extractLsb' 0 4

/-- The immediate byte or sub-discriminator NN, `w[7:0]`. -/
def fieldNN (w : Word) : Byte := w.extractLsb' 0 8

/-- The address NNN, `w[11:0]`. -/
def fieldNNN (w : Word) : BitVec 12 := w.extractLsb' 0 12

/-! ## Decode -/

/-- Why bytes decode to no instruction. -/
inductive DecodeError where
  /-- Fewer than the two bytes of an instruction word (R45). -/
  | truncated
  /-- The word matches no pattern of R50 (R54). -/
  | unknown (w : Word)
  deriving DecidableEq, Repr

/-- The 0 family, selected by P and N, or by the whole word when `exact` (R51). -/
def decodeZero (exact : Bool) (w : Word) : Except DecodeError Instr :=
  if exact then
    if w = 0x00E0 then .ok .cls
    else if w = 0x00EE then .ok .ret
    else .error (.unknown w)
  else
    match fieldN w with
    | 0x0#4 => .ok .cls
    | 0xE#4 => .ok .ret
    | _ => .error (.unknown w)

/-- The 5 family: only N = 0 (R52). -/
def decodeFive (w : Word) : Except DecodeError Instr :=
  if fieldN w = 0 then .ok (.seReg (fieldX w) (fieldY w)) else .error (.unknown w)

/-- The 8 family, selected by N (R52). -/
def decodeAlu (w : Word) : Except DecodeError Instr :=
  match fieldN w with
  | 0x0#4 => .ok (.ldReg (fieldX w) (fieldY w))
  | 0x1#4 => .ok (.orReg (fieldX w) (fieldY w))
  | 0x2#4 => .ok (.andReg (fieldX w) (fieldY w))
  | 0x3#4 => .ok (.xorReg (fieldX w) (fieldY w))
  | 0x4#4 => .ok (.addReg (fieldX w) (fieldY w))
  | 0x5#4 => .ok (.subReg (fieldX w) (fieldY w))
  | 0x6#4 => .ok (.shr (fieldX w) (fieldY w))
  | 0x7#4 => .ok (.subnReg (fieldX w) (fieldY w))
  | 0xE#4 => .ok (.shl (fieldX w) (fieldY w))
  | _ => .error (.unknown w)

/-- The 9 family: only N = 0 (R52). -/
def decodeNine (w : Word) : Except DecodeError Instr :=
  if fieldN w = 0 then .ok (.sneReg (fieldX w) (fieldY w)) else .error (.unknown w)

/-- The E family, selected by NN (R53). -/
def decodeKey (w : Word) : Except DecodeError Instr :=
  match fieldNN w with
  | 0x9E#8 => .ok (.skp (fieldX w))
  | 0xA1#8 => .ok (.sknp (fieldX w))
  | _ => .error (.unknown w)

/-- The F family, selected by NN (R53). -/
def decodeMisc (w : Word) : Except DecodeError Instr :=
  match fieldNN w with
  | 0x07#8 => .ok (.ldVxDT (fieldX w))
  | 0x0A#8 => .ok (.ldVxK (fieldX w))
  | 0x15#8 => .ok (.ldDTVx (fieldX w))
  | 0x18#8 => .ok (.ldSTVx (fieldX w))
  | 0x1E#8 => .ok (.addI (fieldX w))
  | 0x29#8 => .ok (.ldF (fieldX w))
  | 0x33#8 => .ok (.ldB (fieldX w))
  | 0x55#8 => .ok (.ldIVx (fieldX w))
  | 0x65#8 => .ok (.ldVxI (fieldX w))
  | _ => .error (.unknown w)

/-- The instruction a word selects (R49, R50), or the unknown word itself.  It reads nothing but the word
and the parameter `ZERO_FAMILY_EXACT` (R55). -/
def decode (exact : Bool) (w : Word) : Except DecodeError Instr :=
  match fieldP w with
  | 0x0#4 => decodeZero exact w
  | 0x1#4 => .ok (.jp (fieldNNN w))
  | 0x2#4 => .ok (.call (fieldNNN w))
  | 0x3#4 => .ok (.seImm (fieldX w) (fieldNN w))
  | 0x4#4 => .ok (.sneImm (fieldX w) (fieldNN w))
  | 0x5#4 => decodeFive w
  | 0x6#4 => .ok (.ldImm (fieldX w) (fieldNN w))
  | 0x7#4 => .ok (.addImm (fieldX w) (fieldNN w))
  | 0x8#4 => decodeAlu w
  | 0x9#4 => decodeNine w
  | 0xA#4 => .ok (.ldI (fieldNNN w))
  | 0xB#4 => .ok (.jpV0 (fieldNNN w))
  | 0xC#4 => .ok (.rnd (fieldX w) (fieldNN w))
  | 0xD#4 => .ok (.drw (fieldX w) (fieldY w) (fieldN w))
  | 0xE#4 => decodeKey w
  | _ => decodeMisc w

/-- The word of two consecutive bytes: the byte at the lower address is the high byte (R34). -/
def wordOfBytes (high low : Byte) : Word := high ++ low

/-- The two bytes of a word in the order memory holds them, high byte first (R34, R45). -/
def bytesOfWord (w : Word) : List Byte := [w.extractLsb' 8 8, w.extractLsb' 0 8]

/-- Decode the first instruction of a list of bytes and hand back the bytes after it (R45). -/
def decodeBytes (exact : Bool) : List Byte → Except DecodeError (Instr × List Byte)
  | high :: low :: rest =>
    match decode exact (wordOfBytes high low) with
    | .ok i => .ok (i, rest)
    | .error e => .error e
  | _ => .error .truncated

/-- The instruction the decoder reads from a word numbered as opcode_table.json numbers it, under the
default parameters.  The table's rows are one 16-bit word, so `nbits` is 16. -/
def decodeTableWord (nbits w : Nat) : Option Instr :=
  match decodeBytes false (bytesOfWord (BitVec.ofNat 16 (w % 2 ^ nbits))) with
  | .ok (i, _) => some i
  | .error _ => none

/-! ## Encode -/

/-- A register index as the four bits of its field (R46). -/
def regBits (r : Reg) : BitVec 4 := BitVec.ofNat 4 r.val

/-- Formats `OP` and `NNN` of R47: a primary nibble and twelve bits. -/
def encodeNNN (p : BitVec 4) (nnn : BitVec 12) : Word := p ++ nnn

/-- Formats `XNN` and `X` of R47: a primary nibble, X and a byte. -/
def encodeXNN (p : BitVec 4) (x : Reg) (nn : Byte) : Word := p ++ (regBits x ++ nn)

/-- Formats `XY` and `XYN` of R47: a primary nibble, X, Y and a nibble. -/
def encodeXYN (p : BitVec 4) (x y : Reg) (n : BitVec 4) : Word :=
  p ++ (regBits x ++ (regBits y ++ n))

/-- The word of an instruction (R50); CLS and RET give their canonical words, the only ones an assembler
emits (R51, R57). -/
def encode : Instr → Word
  | .cls => 0x00E0
  | .ret => 0x00EE
  | .jp nnn => encodeNNN 0x1 nnn
  | .call nnn => encodeNNN 0x2 nnn
  | .seImm x nn => encodeXNN 0x3 x nn
  | .sneImm x nn => encodeXNN 0x4 x nn
  | .seReg x y => encodeXYN 0x5 x y 0x0
  | .ldImm x nn => encodeXNN 0x6 x nn
  | .addImm x nn => encodeXNN 0x7 x nn
  | .ldReg x y => encodeXYN 0x8 x y 0x0
  | .orReg x y => encodeXYN 0x8 x y 0x1
  | .andReg x y => encodeXYN 0x8 x y 0x2
  | .xorReg x y => encodeXYN 0x8 x y 0x3
  | .addReg x y => encodeXYN 0x8 x y 0x4
  | .subReg x y => encodeXYN 0x8 x y 0x5
  | .shr x y => encodeXYN 0x8 x y 0x6
  | .subnReg x y => encodeXYN 0x8 x y 0x7
  | .shl x y => encodeXYN 0x8 x y 0xE
  | .sneReg x y => encodeXYN 0x9 x y 0x0
  | .ldI nnn => encodeNNN 0xA nnn
  | .jpV0 nnn => encodeNNN 0xB nnn
  | .rnd x nn => encodeXNN 0xC x nn
  | .drw x y n => encodeXYN 0xD x y n
  | .skp x => encodeXNN 0xE x 0x9E
  | .sknp x => encodeXNN 0xE x 0xA1
  | .ldVxDT x => encodeXNN 0xF x 0x07
  | .ldVxK x => encodeXNN 0xF x 0x0A
  | .ldDTVx x => encodeXNN 0xF x 0x15
  | .ldSTVx x => encodeXNN 0xF x 0x18
  | .addI x => encodeXNN 0xF x 0x1E
  | .ldF x => encodeXNN 0xF x 0x29
  | .ldB x => encodeXNN 0xF x 0x33
  | .ldIVx x => encodeXNN 0xF x 0x55
  | .ldVxI x => encodeXNN 0xF x 0x65

/-! ## The match and mask columns of R50 -/

/-- One row of the opcode map: a word `w` selects the row when `w & mask = pattern` (R50). -/
structure OpcodeRow where
  pattern : Word
  mask : Word
  deriving DecidableEq, Repr

/-- Does the word select the row (R50)? -/
def OpcodeRow.selects (r : OpcodeRow) (w : Word) : Bool := decide (w &&& r.mask = r.pattern)

/-- The row of R50 an instruction stands in; `exact` is `ZERO_FAMILY_EXACT`, which narrows the masks of
CLS and RET (R51). -/
def opcodeRow (exact : Bool) : Instr → OpcodeRow
  | .cls => if exact then ⟨0x00E0, 0xFFFF⟩ else ⟨0x0000, 0xF00F⟩
  | .ret => if exact then ⟨0x00EE, 0xFFFF⟩ else ⟨0x000E, 0xF00F⟩
  | .jp _ => ⟨0x1000, 0xF000⟩
  | .call _ => ⟨0x2000, 0xF000⟩
  | .seImm _ _ => ⟨0x3000, 0xF000⟩
  | .sneImm _ _ => ⟨0x4000, 0xF000⟩
  | .seReg _ _ => ⟨0x5000, 0xF00F⟩
  | .ldImm _ _ => ⟨0x6000, 0xF000⟩
  | .addImm _ _ => ⟨0x7000, 0xF000⟩
  | .ldReg _ _ => ⟨0x8000, 0xF00F⟩
  | .orReg _ _ => ⟨0x8001, 0xF00F⟩
  | .andReg _ _ => ⟨0x8002, 0xF00F⟩
  | .xorReg _ _ => ⟨0x8003, 0xF00F⟩
  | .addReg _ _ => ⟨0x8004, 0xF00F⟩
  | .subReg _ _ => ⟨0x8005, 0xF00F⟩
  | .shr _ _ => ⟨0x8006, 0xF00F⟩
  | .subnReg _ _ => ⟨0x8007, 0xF00F⟩
  | .shl _ _ => ⟨0x800E, 0xF00F⟩
  | .sneReg _ _ => ⟨0x9000, 0xF00F⟩
  | .ldI _ => ⟨0xA000, 0xF000⟩
  | .jpV0 _ => ⟨0xB000, 0xF000⟩
  | .rnd _ _ => ⟨0xC000, 0xF000⟩
  | .drw _ _ _ => ⟨0xD000, 0xF000⟩
  | .skp _ => ⟨0xE09E, 0xF0FF⟩
  | .sknp _ => ⟨0xE0A1, 0xF0FF⟩
  | .ldVxDT _ => ⟨0xF007, 0xF0FF⟩
  | .ldVxK _ => ⟨0xF00A, 0xF0FF⟩
  | .ldDTVx _ => ⟨0xF015, 0xF0FF⟩
  | .ldSTVx _ => ⟨0xF018, 0xF0FF⟩
  | .addI _ => ⟨0xF01E, 0xF0FF⟩
  | .ldF _ => ⟨0xF029, 0xF0FF⟩
  | .ldB _ => ⟨0xF033, 0xF0FF⟩
  | .ldIVx _ => ⟨0xF055, 0xF0FF⟩
  | .ldVxI _ => ⟨0xF065, 0xF0FF⟩

/-- One instruction of each constructor, in the order of R50: a list to read the rows from. -/
def rowRepresentatives : List Instr :=
  [Instr.cls, Instr.ret, Instr.jp 0, Instr.call 0, Instr.seImm 0 0] ++
  [Instr.sneImm 0 0, Instr.seReg 0 0, Instr.ldImm 0 0, Instr.addImm 0 0, Instr.ldReg 0 0] ++
  [Instr.orReg 0 0, Instr.andReg 0 0, Instr.xorReg 0 0, Instr.addReg 0 0, Instr.subReg 0 0] ++
  [Instr.shr 0 0, Instr.subnReg 0 0, Instr.shl 0 0, Instr.sneReg 0 0, Instr.ldI 0] ++
  [Instr.jpV0 0, Instr.rnd 0 0, Instr.drw 0 0 0, Instr.skp 0, Instr.sknp 0] ++
  [Instr.ldVxDT 0, Instr.ldVxK 0, Instr.ldDTVx 0, Instr.ldSTVx 0, Instr.addI 0] ++
  [Instr.ldF 0, Instr.ldB 0, Instr.ldIVx 0, Instr.ldVxI 0]

/-- The opcode map of R50 as its 34 rows. -/
def opcodeMap (exact : Bool) : List OpcodeRow := rowRepresentatives.map (opcodeRow exact)

end Sys2Proof
end

