-- ==== Sys2Proof/Machine/Fetch.lean ====
section
/-! DEFINITION. The part of STEP before the execute phase (R56): the halt, the fetch range check, the fetch,
decode, and the unknown word. -/

namespace Sys2Proof.Machine

/-- `FetchWord(a)`: two bytes, the one at the lower address the high byte (R34). -/
def State.fetchWord (s : State) (a : Nat) : Word := wordOfBytes (s.readByte a) (s.readByte (a + 1))

/-- The fetch unit's advance: `pc <- pc + 2` (R34). -/
def State.advance (s : State) : State := s.setPc (s.pc + 2)

/-- What a STEP that fetches an unknown word does (R54). -/
def State.ignoreUnknown (s : State) (w : Word) : State := s.advance.emitDiag w

/-- What the fetch and decode phases of a STEP lead to. -/
inductive Fetched where
  /-- The STEP is over, with this state. -/
  | done (s : State)
  /-- The execute phase of this instruction follows, in this state, where `pc` is `npc`. -/
  | execute (i : Instr) (s : State)
  deriving DecidableEq, Repr

/-- STEP up to its execute phase, in the order of R56 and R109: `halted` (R110), the fetch range (R35),
fetch (R34), decode (R50), the unknown word (R54). -/
def fetch (s : State) : Fetched :=
  if s.halted then .done s
  else if s.pc.toNat + 1 > 4095 then .done (s.raiseAt s.pc .fetchOutOfRange s.pc)
  else
    match decode s.params.zeroFamilyExact (s.fetchWord s.pc.toNat) with
    | .ok i => .execute i s.advance
    | .error _ => .done (s.ignoreUnknown (s.fetchWord s.pc.toNat))

end Sys2Proof.Machine
end

