-- ==== Sys2Proof/Machine/Outside.lean ====
section
/-! DEFINITION. What the outside world does and sees: the transactions other than STEP (R115 to R119, R125 to
R127), whose turn it is (R10, R136), and the outputs (R118, R120, R19). -/

namespace Sys2Proof.Machine

/-- RESET (R125).  The model's own fields stay: RESET changes no parameter, no input still to come and no
event already emitted (log entry 5). -/
def State.doReset (s : State) : State :=
  { State.reset with
    params := s.params
    schedule := s.schedule
    rndIn := s.rndIn
    rndDraws := s.rndDraws
    diag := s.diag }

/-- LOAD(rom): the first min(len, 3584) bytes at 0x200, `pc <- 0x200` (R126, R127). -/
def State.load (s : State) (rom : List Byte) : State :=
  (s.storeBytes Config.loadBase (rom.take Config.romMax)).setPc 0x200

/-- One timer of TICK: down by 1 if non-zero (R115). -/
def countDown (t : Byte) : Byte := if t.toNat > 0 then t - 1 else t

/-- TICK (R115). -/
def State.tick (s : State) : State := (s.setDt (countDown s.dt)).setSt (countDown s.st)

/-- FRAME_ACK (R119). -/
def State.frameAck (s : State) : State := s.setDirty false

/-- The transaction that comes next: the head of the schedule, or STEP (R136; log entry 2). -/
def State.turn (s : State) : Transaction :=
  match s.schedule with
  | [] => .step
  | t :: _ => t

/-- The state with that transaction taken off the schedule. -/
def State.turnTaken (s : State) : State := { s with schedule := s.schedule.tail }

/-- The output `sound_on` (R120). -/
def State.soundOn (s : State) : Bool := decide (s.st ≠ 0)

/-- The frame output: 2048 bytes of value 0 or 1, cell (x, y) at index 64 y + x (R22, R118, D18, D28). -/
def State.frame (s : State) : List Byte :=
  (List.finRange 32).flatMap fun y => (List.finRange 64).map fun x => if s.cell x y then 1 else 0

/-- The fault report output: `halted`, `fault_cause`, `fault_pc`, `fault_info` (R19). -/
def State.faultReport (s : State) : Bool × BitVec 3 × Word × Word :=
  (s.halted, s.faultCause, s.faultPc, s.faultInfo)

end Sys2Proof.Machine
end

