-- ==== Sys2Proof/Machine/Step.lean ====
section
/-! DEFINITION. One step of the machine: the transaction whose turn it is, which for STEP is fetch, decode and
execute (R56). -/

namespace Sys2Proof.Machine

/-- STEP (R56). -/
def engineStep (s : State) : Host.Outcome State Fault Refusal :=
  match fetch s with
  | .done t => .next t
  | .execute i t => exec i t

/-- The effect of one transaction (R4, R10). -/
def transact (t : Transaction) (s : State) : Host.Outcome State Fault Refusal :=
  match t with
  | .step => engineStep s
  | .reset => .next s.doReset
  | .load rom => .next (s.load rom)
  | .tick => .next s.tick
  | .keys k => .next (s.setKeys k)
  | .frameAck => .next s.frameAck

/-- One step: the transaction at the head of the schedule, or a STEP when the schedule is empty (R136). -/
def step (s : State) : Host.Outcome State Fault Refusal := transact s.turn s.turnTaken

/-- `s` with the word `w` stored where the next step fetches: at `pc`, or at the entry point 0x200 when
nothing can be fetched at `pc`; the block not halted, and a STEP next on the schedule (log entry 13). -/
def State.withFetchWord (s : State) (nbits w : Nat) : State :=
  let pc : Word := if s.pc.toNat + 1 > 4095 then 0x200 else s.pc
  let word : Word := BitVec.ofNat 16 (w % 2 ^ nbits)
  let schedule : List Transaction := if s.schedule.isEmpty then [] else .step :: s.schedule
  { (s.storeBytes pc.toNat (bytesOfWord word)) with pc := pc, halted := false, schedule := schedule }

end Sys2Proof.Machine
end

