-- ==== Sys2Proof/Safety.lean ====
section
/-! DEFINITION. What counts as a safe run, and the terms the statements use: the invariant of R13 and R27,
when a STEP executes an instruction, and the frame, which names everything a step leaves unchanged. -/

namespace Sys2Proof.Machine

/-- What holds in every state a run reaches (R13, R16, R27, R102), beyond what the types of the fields say
already. -/
structure State.Inv (s : State) : Prop where
  /-- Memory is in its canonical form, inside 0 to 4095 (R30; log entry 10). -/
  memWf : Memory.wf s.params s.mem = true
  /-- `sp` counts at most sixteen return addresses (R16). -/
  spLegal : s.sp.toNat ≤ 16
  /-- `pc` never exceeds 0xFFF + 0xFF (R13). -/
  pcBound : s.pc.toNat ≤ 0x10FE
  /-- A stack entry is at most 4096 (R27). -/
  stackBound : ∀ k, (s.stackEntry k).toNat ≤ 4096
  /-- `halted` is 1 exactly when `fault_cause` is not 0 (R27). -/
  haltedIffCause : s.halted = true ↔ s.faultCause ≠ 0
  /-- Codes 6 and 7 are unused (R102). -/
  causeUsed : s.faultCause.toNat ≤ 5
  /-- Before any fault the other fault registers hold their reset values (R19, R102). -/
  noFaultInfo : s.halted = false → s.faultPc = 0 ∧ s.faultInfo = 0

/-- A safe run has met no fatal condition: the block is not halted (R110, R132 e). -/
def State.Running (s : State) : Prop := s.halted = false

/-- A STEP executes an instruction here: not halted, and two bytes at `pc` to fetch (R35, R56). -/
def State.CanFetch (s : State) : Prop := s.Running ∧ s.pc.toNat + 1 ≤ 4095

/-- The parts of the state beside the general registers and memory. -/
inductive Part where
  | pc
  | i
  | sp
  | stack
  | dt
  | st
  | dirty
  | key
  | fb
  /-- `halted`, `fault_cause`, `fault_pc` and `fault_info` (R19). -/
  | fault
  /-- The random source (R122). -/
  | rnd
  /-- The diagnostic events (R121). -/
  | diag
  deriving DecidableEq, Repr

/-- From `s` to `t` nothing has changed except, possibly, the registers `regs`, the parts `parts` and the
bytes of memory at the addresses `touched`.  The parameters and the outside world's schedule never change. -/
structure Frame (s t : State) (regs : List Reg) (parts : List Part) (touched : Nat → Prop) : Prop where
  regs : ∀ q, q ∉ regs → t.reg q = s.reg q
  pc : Part.pc ∉ parts → t.pc = s.pc
  i : Part.i ∉ parts → t.i = s.i
  sp : Part.sp ∉ parts → t.sp = s.sp
  stack : Part.stack ∉ parts → ∀ k, t.stackEntry k = s.stackEntry k
  dt : Part.dt ∉ parts → t.dt = s.dt
  st : Part.st ∉ parts → t.st = s.st
  dirty : Part.dirty ∉ parts → t.dirty = s.dirty
  key : Part.key ∉ parts → ∀ k, t.pressed k = s.pressed k
  fb : Part.fb ∉ parts → ∀ x y, t.cell x y = s.cell x y
  fault : Part.fault ∉ parts → t.faultReport = s.faultReport
  rnd : Part.rnd ∉ parts → t.rndIn = s.rndIn ∧ t.rndDraws = s.rndDraws
  diag : Part.diag ∉ parts → t.diag = s.diag
  params : t.params = s.params
  schedule : t.schedule = s.schedule
  /-- Every byte of memory outside `touched` reads as before. -/
  memory : ∀ a, ¬ touched a → t.readByte a = s.readByte a

/-- No byte of memory: the frame of an instruction that stores nothing. -/
def noBytes (_ : Nat) : Prop := False

/-- The `count` bytes at I and upward: the bytes LD B and LD [I] store to (R38). -/
def State.bytesAtI (s : State) (count : Nat) (a : Nat) : Prop := s.dataBase ≤ a ∧ a < s.dataBase + count

/-- The registers an instruction writes: the rows `V[X]` and `VF as flag` of R28. -/
def regsWritten : Instr → List Reg
  | .ldImm x _ | .addImm x _ | .ldReg x _ | .orReg x _ | .andReg x _ | .xorReg x _ | .rnd x _
  | .ldVxDT x | .ldVxK x => [x]
  | .addReg x _ | .subReg x _ | .shr x _ | .subnReg x _ | .shl x _ => [x, VF]
  | .drw _ _ _ => [VF]
  | .ldVxI x => (List.finRange 16).filter fun q => q.val ≤ x.val
  | .cls | .ret | .jp _ | .call _ | .seImm _ _ | .sneImm _ _ | .seReg _ _ | .sneReg _ _ | .ldI _
  | .jpV0 _ | .skp _ | .sknp _ | .ldDTVx _ | .ldSTVx _ | .addI _ | .ldF _ | .ldB _ | .ldIVx _ => []

/-- The fatal condition of R102 that holds for an instruction in a state, with its `fault_info`; none if
the instruction executes normally.  Written from the table of R102 alone; the parameter
`KEY_INDEX_POLICY` turns the last row off (R90). -/
def fatalCondition (i : Instr) (s : State) : Option (FaultKind × Word) :=
  let data (count : Nat) : Option (FaultKind × Word) :=
    if count ≥ 1 ∧ s.i.toNat + count - 1 > 4095 then
      some (.memIndexOutOfRange, BitVec.ofNat 16 (max s.i.toNat 4096)) else none
  let keyIndex (x : Reg) : Option (FaultKind × Word) :=
    if (s.reg x).toNat > 15 ∧ s.params.keyIndexPolicy = .fault then
      some (.keyIndexOutOfRange, (s.reg x).setWidth 16) else none
  match i with
  | .call _ => if s.sp = 16 then some (.stackOverflow, 16) else none
  | .ret => if s.sp = 0 then some (.stackUnderflow, 0) else none
  | .drw _ _ n => data n.toNat
  | .ldB _ => data 3
  | .ldIVx x => data (x.val + 1)
  | .ldVxI x => data (x.val + 1)
  | .skp x => keyIndex x
  | .sknp x => keyIndex x
  | .cls | .jp _ | .seImm _ _ | .sneImm _ _ | .seReg _ _ | .ldImm _ _ | .addImm _ _ | .ldReg _ _
  | .orReg _ _ | .andReg _ _ | .xorReg _ _ | .addReg _ _ | .subReg _ _ | .shr _ _ | .subnReg _ _
  | .shl _ _ | .sneReg _ _ | .ldI _ | .jpV0 _ | .rnd _ _ | .ldVxDT _ | .ldVxK _ | .ldDTVx _
  | .ldSTVx _ | .addI _ | .ldF _ => none

/-- Is the cell at column `x`, row `y` one that a set bit of the sprite lands on?  The sprite is the `n`
bytes at I with its corner at (V[X] mod 64, V[Y] mod 32), wrapping on both axes (R87, R88). -/
def State.SpriteCovers (s : State) (vx vy : Reg) (n : Nat) (x : Fin 64) (y : Fin 32) : Prop :=
  ∃ r < n, ∃ c < 8,
    x.val = ((s.reg vx).toNat % 64 + c) % 64 ∧
    y.val = ((s.reg vy).toNat % 32 + r) % 32 ∧
    (s.readByte (s.i.toNat + r)).toNat / 2 ^ (7 - c) % 2 = 1

end Sys2Proof.Machine
end

