-- ==== Sys2Proof/Certificates/Slice0/Obligations.lean ====
section
/-! DEFINITION. The statements for the provers, in the order of the spec's files.  Where a statement says
`exec`, the state it starts from is the one the execute phase sees: `pc` is `npc`, the address of the
instruction plus 2 (R8, R56), so `pc` unchanged means that execution goes on at the next instruction. -/

open Sys2Proof Sys2Proof.Machine

/-! ## State and reset (10_state.md, 70_reset_and_hazards.md) -/

/-- R26, the column "after RESET" and the column "after RESET then LOAD(rom)": every register, entry, timer,
flag and cell 0, memory the font table and 0 elsewhere; LOAD puts the first 3584 bytes of the ROM at 0x200
and sets `pc` to 0x200.  It holds from every state, for every font parameter; a RESET of `State.reset` changes
nothing. -/
def Obligations.ResetThenLoadGivesTheTableOfResetValues : Prop :=
  State.reset.doReset = State.reset ∧
  ∀ (s : State) (rom : List Byte), ∃ r l,
    transact .reset s = .next r ∧ transact (.load rom) r = .next l ∧
    r.pc = 0 ∧ l.pc = 0x200 ∧
    (∀ a, r.readByte a = if 0x050 ≤ a ∧ a ≤ 0x09F then fontByte s.params (a - 0x050) else 0) ∧
    (∀ a, a < 0x200 → l.readByte a = r.readByte a) ∧
    (∀ k, k < 3584 → l.readByte (0x200 + k) = rom.getD k 0) ∧
    (∀ u, u = r ∨ u = l →
      (∀ q, u.reg q = 0) ∧ u.i = 0 ∧ u.sp = 0 ∧ (∀ k, u.stackEntry k = 0) ∧ u.dt = 0 ∧ u.st = 0 ∧
      u.dirty = false ∧ (∀ k, u.pressed k = false) ∧ (∀ x y, u.cell x y = false) ∧
      u.halted = false ∧ u.faultCause = 0 ∧ u.faultPc = 0 ∧ u.faultInfo = 0)

/-- R21 (glyphs 1 to F are PRESUMED, log entry 9): glyph g occupies addresses 0x050 + 5g to 0x050 + 5g + 4
after RESET, top row first; glyph 0 is the one the document gives, the others are the parameter `FONT`; with
the default parameter they are the table of R21, read here as one number a glyph. -/
def Obligations.FontTableAfterReset : Prop :=
  (∀ (s : State) (g : Fin 16) (j : Fin 5),
    s.doReset.readByte (0x050 + 5 * g.val + j.val) = (glyphOf s.params g)[j.val]) ∧
  (∀ (s : State) (j : Fin 5), s.doReset.readByte (0x050 + j.val) =
    ([0xF0, 0x90, 0x90, 0x90, 0xF0] : List Byte).getD j.val 0) ∧
  (∀ g : Fin 16,
    (List.range 5).foldl (fun n j => n * 256 + (State.reset.readByte (0x050 + 5 * g.val + j)).toNat) 0 =
      [0xF0909090F0, 0x2060202070, 0xF010F080F0, 0xF010F010F0, 0x9090F01010, 0xF080F010F0,
       0xF080F090F0, 0xF010204040, 0xF090F090F0, 0xF090F010F0, 0xF090F09090, 0xE090E090E0,
       0xF0808080F0, 0xE0909090E0, 0xF080F080F0, 0xF080F08080].getD g.val 0)

/-- R126, R127: LOAD copies min(len, 3584) bytes to 0x200 upward, drops the rest, sets `pc` to 0x200, and
changes nothing else: not the memory below 0x200 nor from 0x200 + n upward. -/
def Obligations.LoadCopiesTruncatedRomAndNothingElse : Prop :=
  ∀ (s : State) (rom : List Byte), ∃ t, transact (.load rom) s = .next t ∧
    t.pc = 0x200 ∧
    (∀ k, k < min rom.length 3584 → t.readByte (0x200 + k) = rom.getD k 0) ∧
    Frame s t [] [.pc] (fun a => 0x200 ≤ a ∧ a < 0x200 + min rom.length 3584)

/-- R128, R34: after RESET and LOAD of any ROM of at least two bytes, truncated or not, the first fetch
gives the big-endian word of its first two bytes, and `pc` is 0x202 after it.  (The spec marks the extension to
ROMs of 3584 bytes and more as derived.) -/
def Obligations.FirstFetchAfterLoadIsFirstTwoRomBytes : Prop :=
  ∀ (s : State) (b0 b1 : Byte) (rest : List Byte), ∃ t,
    transact (.load (b0 :: b1 :: rest)) s.doReset = .next t ∧
    (t.fetchWord t.pc.toNat).toNat = b0.toNat * 256 + b1.toNat ∧
    ((∃ i u, fetch t = .execute i u ∧ u.pc = 0x202) ∨ (∃ u, fetch t = .done u ∧ u.pc = 0x202))

/-- The invariant of R13, R16 and R27 (the spec marks R27 as derived) holds after reset. -/
def Obligations.ResetSatisfiesTheInvariant : Prop :=
  State.reset.Inv ∧ ∀ s : State, s.doReset.Inv

/-- R27, R13, R16 (the spec marks R27 as derived): every step, whichever transaction it is, keeps the
invariant: memory in canonical form, `sp` at most 16, `pc` at most 0x10FE, stack entries at most 4096,
`halted` exactly when `fault_cause` is not 0.  From EVERY state that meets it, reached or not. -/
def Obligations.EveryStepKeepsTheInvariant : Prop :=
  ∀ s t : State, s.Inv → step s = .next t → t.Inv

/-- In a state with `sp` at most 16 no step stops: whatever the bytes of memory, the schedule and the
registers, it answers a next state, and so does every run from such a state that meets the invariant.
Derived.  That a fatal STEP (R101) and a STEP of a halted block (R110) answer a next state is log entry 6
(DEDUCED): R100 says that the interpreter "never terminates a run due to unknown or malformed instructions"
"except for the fatal out-of-bounds classes above, which should halt the run loop", and here such a halt is a
next state with `halted` set, after which every STEP answers the same state.  That the one stop of the model
is CALL or RET at an `sp` above 16 is its own choice, log entry 7 (DESIGN CHOICE). -/
def Obligations.NoStepStopsUnderTheInvariant : Prop :=
  (∀ s : State, s.sp.toNat ≤ 16 → ∃ t, step s = .next t) ∧
  (∀ (s : State) (n : Nat), s.Inv → ∃ t, core.run n s = .next t ∧ State.Inv t)

/-- R28, the whole table: who writes what.  The first part says it of the instructions: a register or part that
the instruction does not write stays as it was (I is also written by the block transfers when
`BLOCK_INCREMENTS_I`, R98, R99; the fault registers by a faulting STEP only, R101, which also puts `pc` back).
The second says it of the transactions of the outside world other than RESET, which writes every row. -/
def Obligations.OnlyTheListedWritersWriteEachPart : Prop :=
  (∀ (i : Instr) (s t : State), exec i s = .next t →
    (∀ q, q ∉ regsWritten i → t.reg q = s.reg q) ∧
    ((∀ x nn, i ≠ .seImm x nn ∧ i ≠ .sneImm x nn) → (∀ x y, i ≠ .seReg x y ∧ i ≠ .sneReg x y) →
      (∀ x, i ≠ .skp x ∧ i ≠ .sknp x ∧ i ≠ .ldVxK x) →
      (∀ nnn, i ≠ .jp nnn ∧ i ≠ .jpV0 nnn ∧ i ≠ .call nnn) → i ≠ .ret → fatalCondition i s = none →
      t.pc = s.pc) ∧
    ((∀ nnn, i ≠ .ldI nnn) → (∀ x, i ≠ .addI x) → (∀ x, i ≠ .ldF x) →
      (s.params.blockIncrementsI = true → (∀ x, i ≠ .ldIVx x) ∧ (∀ x, i ≠ .ldVxI x)) → t.i = s.i) ∧
    ((∀ nnn, i ≠ .call nnn) → i ≠ .ret → t.sp = s.sp) ∧
    ((∀ nnn, i ≠ .call nnn) → ∀ k, t.stackEntry k = s.stackEntry k) ∧
    ((∀ x, i ≠ .ldDTVx x) → t.dt = s.dt) ∧
    ((∀ x, i ≠ .ldSTVx x) → t.st = s.st) ∧
    ((∀ x, i ≠ .ldB x) → (∀ x, i ≠ .ldIVx x) → ∀ a, t.readByte a = s.readByte a) ∧
    (i ≠ .cls → (∀ x y n, i ≠ .drw x y n) → (∀ x y, t.cell x y = s.cell x y) ∧ t.dirty = s.dirty) ∧
    (s.dirty = true → t.dirty = true) ∧
    (∀ k, t.pressed k = s.pressed k) ∧
    (fatalCondition i s = none → t.faultReport = s.faultReport)) ∧
  (∀ (tr : Transaction) (s t : State), tr ≠ .step → tr ≠ .reset → transact tr s = .next t →
    (∀ q, t.reg q = s.reg q) ∧ t.i = s.i ∧ t.sp = s.sp ∧ (∀ k, t.stackEntry k = s.stackEntry k) ∧
    ((∀ rom, tr ≠ .load rom) → t.pc = s.pc ∧ ∀ a, t.readByte a = s.readByte a) ∧
    (tr ≠ .tick → t.dt = s.dt ∧ t.st = s.st) ∧
    (∀ x y, t.cell x y = s.cell x y) ∧
    (tr ≠ .frameAck → t.dirty = s.dirty) ∧
    ((∀ k, tr ≠ .keys k) → ∀ j, t.pressed j = s.pressed j) ∧
    t.faultReport = s.faultReport)

/-- Of R12 (derived from its list): the instructions that write VF as a side effect are exactly ADD Vx,Vy,
SUB, SUBN, SHR, SHL and DRW; every other instruction leaves VF unchanged unless its X field is 15 and it
writes V[X]. -/
def Obligations.VfChangesOnlyAsFlagOrAsDestination : Prop :=
  ∀ (i : Instr) (s t : State), exec i s = .next t → t.reg VF ≠ s.reg VF →
    (∃ x y, i = .addReg x y ∨ i = .subReg x y ∨ i = .subnReg x y ∨ i = .shr x y ∨ i = .shl x y) ∨
    (∃ x y n, i = .drw x y n) ∨
    (∃ nn, i = .ldImm VF nn ∨ i = .addImm VF nn ∨ i = .rnd VF nn) ∨
    (∃ y, i = .ldReg VF y ∨ i = .orReg VF y ∨ i = .andReg VF y ∨ i = .xorReg VF y) ∨
    i = .ldVxDT VF ∨ i = .ldVxK VF ∨ i = .ldVxI VF

/-- Of R17, R18, R19 (derived from their sentences on who reads what): no instruction reads ST, `dirty` or a
fault register.  Two states that differ in these alone run the same instruction to states that differ in
these alone. -/
def Obligations.NoInstructionReadsSoundDirtyOrFaults : Prop :=
  ∀ (i : Instr) (s t : State) (st : Byte) (dirty halted : Bool) (c : BitVec 3) (p n : Word),
    exec i s = .next t →
    ∃ u, exec i { s with
        st := st, dirty := dirty, halted := halted, faultCause := c, faultPc := p, faultInfo := n } = .next u ∧
      { u with
        st := t.st, dirty := t.dirty, halted := t.halted, faultCause := t.faultCause,
        faultPc := t.faultPc, faultInfo := t.faultInfo } = t

/-! ## Memory and fetch (20_memory.md) -/

/-- R34: the word at `a` has the byte at `a` as its high byte and the byte at `a + 1` as its low byte, and a
fetch that succeeds advances `pc` by 2. -/
def Obligations.FetchIsBigEndianAndAdvancesPc : Prop :=
  ∀ s : State,
    (∀ a, (s.fetchWord a).toNat = (s.readByte a).toNat * 256 + (s.readByte (a + 1)).toNat) ∧
    (∀ i u, fetch s = .execute i u → u.pc = s.pc + 2 ∧ u.pc.toNat = s.pc.toNat + 2)

/-- R43, R36 (the spec marks both as derived): a store is seen by the next fetch from its address, V0 as the
high byte and V1 as the low byte. -/
def Obligations.StoredRegistersAreFetchedAsAWord : Prop :=
  ∀ (s t : State) (x : Reg), 1 ≤ x.val → s.i.toNat + x.val ≤ 4095 → exec (.ldIVx x) s = .next t →
    (t.fetchWord s.i.toNat).toNat = (s.reg 0).toNat * 256 + (s.reg 1).toNat

/-! ## Encoding and the cycle (30_encoding.md) -/

/-- R46: the fields of a word, as numbers: P, X, Y, N its four nibbles, NN = (Y << 4) | N and
NNN = (X << 8) | NN. -/
def Obligations.FieldsAreTheNibblesOfTheWord : Prop :=
  ∀ w : Word,
    (fieldP w).toNat = w.toNat / 4096 ∧ (fieldX w).val = w.toNat / 256 % 16 ∧
    (fieldY w).val = w.toNat / 16 % 16 ∧ (fieldN w).toNat = w.toNat % 16 ∧
    (fieldNN w).toNat = (fieldY w).val * 16 + (fieldN w).toNat ∧
    (fieldNNN w).toNat = (fieldX w).val * 256 + (fieldNN w).toNat

/-- Derived from R46 and R50 (whose opcode numbers are PRESUMED, log entry 8): decoding the word an
instruction encodes to gives the instruction back, for EVERY instruction with every operand, under either
value of `ZERO_FAMILY_EXACT` (every `Instr` is well formed). -/
def Obligations.DecodeOfEncodeIsTheInstruction : Prop :=
  ∀ (exact : Bool) (i : Instr), i.WellFormed = true → decode exact (encode i) = .ok i

/-- Derived from R46, R50 and R51 (log entry 8): encoding what a word decodes to gives the word back, but
for CLS and RET, whose words are not decoded in bits 11:4 (R51); with `ZERO_FAMILY_EXACT` for those too. -/
def Obligations.EncodeOfDecodeIsTheWord : Prop :=
  ∀ (exact : Bool) (w : Word) (i : Instr), decode exact w = .ok i →
    ((i ≠ .cls ∧ i ≠ .ret) ∨ exact = true) → encode i = w

/-- R50 (whose opcode numbers are PRESUMED, log entry 8): a word decodes to an instruction exactly when it
selects that instruction's row of the opcode map, `w & mask = match`, and it is unknown exactly when it
selects none of the 34 rows. -/
def Obligations.DecodeSelectsTheRowOfTheOpcodeMap : Prop :=
  ∀ (exact : Bool) (w : Word),
    (∀ i, decode exact w = .ok i → (opcodeRow exact i).selects w = true) ∧
    (∀ i, (opcodeRow exact i).selects w = true →
      ∃ j, decode exact w = .ok j ∧ opcodeRow exact j = opcodeRow exact i) ∧
    (decode exact w = .error (.unknown w) ↔ ∀ r ∈ opcodeMap exact, r.selects w = false)

/-- Of R49, for the patterns of R50 (log entry 8): the patterns do not overlap, so at most one matches any
word. -/
def Obligations.OpcodePatternsDoNotOverlap : Prop :=
  (∀ exact, (opcodeMap exact).length = 34) ∧
  ∀ (exact : Bool) (w : Word) (r r' : OpcodeRow), r ∈ opcodeMap exact → r' ∈ opcodeMap exact →
    r.selects w = true → r'.selects w = true → r = r'

/-- R51: with `ZERO_FAMILY_EXACT` false a word with P = 0 is CLS if N = 0, RET if N = 0xE and unknown
otherwise, so the all-zero word is CLS; with it true only 0x00E0 and 0x00EE are, and every other P = 0
word is unknown. -/
def Obligations.ZeroFamilyIsClsRetOrUnknown : Prop :=
  (∀ w : Word, w.toNat / 4096 = 0 →
    (w.toNat % 16 = 0 → decode false w = .ok .cls) ∧
    (w.toNat % 16 = 14 → decode false w = .ok .ret) ∧
    (w.toNat % 16 ≠ 0 → w.toNat % 16 ≠ 14 → decode false w = .error (.unknown w)) ∧
    (w.toNat ≠ 0x00E0 → w.toNat ≠ 0x00EE → decode true w = .error (.unknown w))) ∧
  decode true 0x00E0 = .ok .cls ∧ decode true 0x00EE = .ok .ret ∧ decode false 0x0000 = .ok .cls

/-- R54: the words unknown to the decoder are exactly those of its table, and a STEP that fetches one advances
`pc` by 2, emits diag(w), and changes nothing else: it is not a fault. -/
def Obligations.UnknownWordIsATwoByteNoOpWithAReport : Prop :=
  (∀ (exact : Bool) (w : Word), decode exact w = .error (.unknown w) ↔ wordDefined exact w = false) ∧
  ∀ s : State, s.CanFetch →
    wordDefined s.params.zeroFamilyExact (s.fetchWord s.pc.toNat) = false →
    ∃ t, engineStep s = .next t ∧ t.pc = s.pc + 2 ∧ t.diag = s.diag ++ [s.fetchWord s.pc.toNat] ∧
      Frame s t [] [.pc, .diag] noBytes

/-- Words written out from the patterns of R50 (log entry 8), one or more of each family, decode to what
they stand for. -/
def Obligations.SpelledWordsDecode : Prop :=
  decode false 0x00E0 = .ok .cls ∧ decode false 0x00EE = .ok .ret ∧
  decode false 0x1ABC = .ok (.jp 0xABC) ∧ decode false 0x2300 = .ok (.call 0x300) ∧
  decode false 0x3342 = .ok (.seImm 3 0x42) ∧ decode false 0x5120 = .ok (.seReg 1 2) ∧
  decode false 0x6AFF = .ok (.ldImm 10 0xFF) ∧ decode false 0x80F4 = .ok (.addReg 0 15) ∧
  decode false 0x820E = .ok (.shl 2 0) ∧ decode false 0xA2F0 = .ok (.ldI 0x2F0) ∧
  decode false 0xC10F = .ok (.rnd 1 0x0F) ∧ decode false 0xD125 = .ok (.drw 1 2 5) ∧
  decode false 0xE1A1 = .ok (.sknp 1) ∧ decode false 0xF218 = .ok (.ldSTVx 2) ∧
  decode false 0xF155 = .ok (.ldIVx 1) ∧ decode false 0x8018 = .error (.unknown 0x8018)

/-- Derived from R56 (whose turn it is: log entry 2): when it is the engine's turn, the block is not halted
and the two bytes at `pc` decode to a well-formed instruction, a step is `exec` of that instruction, in the
state whose `pc` has been advanced past the word and whose schedule has lost the STEP. -/
def Obligations.StepRunsTheDecodedInstruction : Prop :=
  ∀ (s : State) (i : Instr), i.WellFormed = true → s.turn = .step → s.CanFetch →
    decode s.params.zeroFamilyExact
      (s.readByte s.pc.toNat ++ s.readByte (s.pc.toNat + 1)) = .ok i →
    step s = exec i { s with pc := s.pc + 2, schedule := s.schedule.tail }

/-- R56, the whole STEP in its order: halted, the fetch range, fetch and advance, execute or report. -/
def Obligations.StepFollowsTheCycleInOrder : Prop :=
  ∀ s : State,
    (s.halted = true → engineStep s = .next s) ∧
    (s.halted = false → s.pc.toNat + 1 > 4095 →
      engineStep s = .next { s with
        halted := true, faultCause := 1, faultPc := s.pc, faultInfo := s.pc }) ∧
    (s.halted = false → s.pc.toNat + 1 ≤ 4095 → ∀ w,
      w = (s.readByte s.pc.toNat).setWidth 16 <<< 8 ||| (s.readByte (s.pc.toNat + 1)).setWidth 16 →
      (∀ i, decode s.params.zeroFamilyExact w = .ok i → engineStep s = exec i { s with pc := s.pc + 2 }) ∧
      ((∀ i, decode s.params.zeroFamilyExact w ≠ .ok i) →
        engineStep s = .next { s with pc := s.pc + 2, diag := s.diag ++ [w] }))

/-- R10, R136: the outside world's transactions and the STEPs happen one at a time in the order the schedule
gives them; when it is exhausted every step is a STEP (the model's choice, log entry 2). -/
def Obligations.StepTakesTheNextScheduledTransaction : Prop :=
  ∀ s : State,
    (∀ tr rest, s.schedule = tr :: rest → step s = transact tr { s with schedule := rest }) ∧
    (s.schedule = [] → step s = engineStep s) ∧
    (∀ tr t, transact tr s = .next t → t.schedule = s.schedule ∧ t.params = s.params)

/-! ## Display clear and flow (40_display_flow.md) -/

/-- R60: CLS writes 0 to all 2048 cells, sets `dirty`, and changes nothing else. -/
def Obligations.ClsClearsTheDisplay : Prop :=
  ∀ s : State, ∃ t, exec .cls s = .next t ∧ (∀ x y, t.cell x y = false) ∧ t.dirty = true ∧
    Frame s t [] [.fb, .dirty] noBytes

/-- R61: RET with `sp` = 0 raises StackUnderflow; else it decrements `sp` and takes `pc` from the entry then
at `stack[sp]`, which keeps its value. -/
def Obligations.RetPopsOrUnderflows : Prop :=
  ∀ s : State,
    (s.sp = 0 → ∃ t, exec .ret s = .next t ∧ t.faultReport = (true, 3, s.pc - 2, 0) ∧
      t.pc = s.pc - 2 ∧ Frame s t [] [.pc, .fault] noBytes) ∧
    (∀ k : Fin 16, s.sp.toNat = k.val + 1 → ∃ t, exec .ret s = .next t ∧
      t.sp.toNat = k.val ∧ t.pc = s.stackEntry k ∧ Frame s t [] [.pc, .sp] noBytes)

/-- R62: JP NNN sets `pc` to NNN zero-extended, and changes nothing else. -/
def Obligations.JpSetsPc : Prop :=
  ∀ (s : State) (nnn : BitVec 12), ∃ t, exec (.jp nnn) s = .next t ∧ t.pc.toNat = nnn.toNat ∧
    Frame s t [] [.pc] noBytes

/-- R63: CALL NNN with `sp` = 16 raises StackOverflow; else it stores `npc` at `stack[sp]`, increments `sp` and
sets `pc` to NNN. -/
def Obligations.CallPushesOrOverflows : Prop :=
  ∀ (s : State) (nnn : BitVec 12),
    (s.sp = 16 → ∃ t, exec (.call nnn) s = .next t ∧ t.faultReport = (true, 2, s.pc - 2, 16) ∧
      t.pc = s.pc - 2 ∧ Frame s t [] [.pc, .fault] noBytes) ∧
    (∀ k : Fin 16, s.sp.toNat = k.val → ∃ t, exec (.call nnn) s = .next t ∧
      t.sp.toNat = k.val + 1 ∧ t.stackEntry k = s.pc ∧
      (∀ j, j ≠ k → t.stackEntry j = s.stackEntry j) ∧ t.pc.toNat = nnn.toNat ∧
      Frame s t [] [.pc, .sp, .stack] noBytes)

/-- CALL and RET with `sp` above 16, which no rule covers and no run reaches (R16), stop under a name of the
model's own (log entry 7). -/
def Obligations.CallAndRetStopWhereNoEntryExists : Prop :=
  ∀ (s : State) (nnn : BitVec 12), s.sp.toNat > 16 →
    exec (.call nnn) s = .fault (.noSuchStackEntry s.sp) ∧ exec .ret s = .fault (.noSuchStackEntry s.sp)

/-- Test property S4 of the document, derived from R61 and R63: a RET after a CALL, whatever address it is
executed at, goes on at the instruction after the CALL with the stack pointer it had before. -/
def Obligations.RetAfterCallReturns : Prop :=
  ∀ (s t : State) (nnn : BitVec 12) (npc : Word), s.sp.toNat < 16 → exec (.call nnn) s = .next t →
    ∃ u, exec .ret { t with pc := npc } = .next u ∧ u.pc = s.pc ∧ u.sp = s.sp ∧
      Frame s u [] [.stack] noBytes

/-! ## Skips (41_skip.md) -/

/-- R64, R65: SE Vx,NN and SNE Vx,NN advance `pc` by a further 2 when V[X] equals, differs from, NN. -/
def Obligations.ImmediateSkips : Prop :=
  ∀ (s : State) (x : Reg) (nn : Byte), ∃ t u,
    exec (.seImm x nn) s = .next t ∧ exec (.sneImm x nn) s = .next u ∧
    t.pc = (if (s.reg x).toNat = nn.toNat then s.pc + 2 else s.pc) ∧
    u.pc = (if (s.reg x).toNat = nn.toNat then s.pc else s.pc + 2) ∧
    Frame s t [] [.pc] noBytes ∧ Frame s u [] [.pc] noBytes

/-- R66, R67: SE Vx,Vy and SNE Vx,Vy advance `pc` by a further 2 when V[X] equals, differs from, V[Y]. -/
def Obligations.RegisterSkips : Prop :=
  ∀ (s : State) (x y : Reg), ∃ t u,
    exec (.seReg x y) s = .next t ∧ exec (.sneReg x y) s = .next u ∧
    t.pc = (if (s.reg x).toNat = (s.reg y).toNat then s.pc + 2 else s.pc) ∧
    u.pc = (if (s.reg x).toNat = (s.reg y).toNat then s.pc else s.pc + 2) ∧
    Frame s t [] [.pc] noBytes ∧ Frame s u [] [.pc] noBytes

/-! ## Immediate (42_immediate.md) -/

/-- R68, R69: LD Vx,NN sets V[X] to NN; ADD Vx,NN sets it to the sum modulo 256 and leaves VF alone unless X
is 15. -/
def Obligations.ImmediateLoadAndAdd : Prop :=
  ∀ (s : State) (x : Reg) (nn : Byte), ∃ t u,
    exec (.ldImm x nn) s = .next t ∧ exec (.addImm x nn) s = .next u ∧
    t.reg x = nn ∧ (u.reg x).toNat = ((s.reg x).toNat + nn.toNat) % 256 ∧
    Frame s t [x] [] noBytes ∧ Frame s u [x] [] noBytes

/-! ## Register ALU (43_alu.md) -/

/-- R71 to R74: copy, OR, AND and XOR, bit by bit; no flag is written, so VF changes only if X is 15. -/
def Obligations.CopyAndLogicWriteOnlyVx : Prop :=
  ∀ (s : State) (x y : Reg), ∃ t₁ t₂ t₃ t₄,
    exec (.ldReg x y) s = .next t₁ ∧ exec (.orReg x y) s = .next t₂ ∧
    exec (.andReg x y) s = .next t₃ ∧ exec (.xorReg x y) s = .next t₄ ∧
    (∀ k < 8, (t₁.reg x).getLsbD k = (s.reg y).getLsbD k ∧
      (t₂.reg x).getLsbD k = ((s.reg x).getLsbD k || (s.reg y).getLsbD k) ∧
      (t₃.reg x).getLsbD k = ((s.reg x).getLsbD k && (s.reg y).getLsbD k) ∧
      (t₄.reg x).getLsbD k = ((s.reg x).getLsbD k ^^ (s.reg y).getLsbD k)) ∧
    Frame s t₁ [x] [] noBytes ∧ Frame s t₂ [x] [] noBytes ∧
    Frame s t₃ [x] [] noBytes ∧ Frame s t₄ [x] [] noBytes

/-- R75, R70: ADD Vx,Vy gives the sum modulo 256 and VF = 1 if the sum exceeds 255 else 0; with X = 15 the
flag is what VF keeps (the sum instead when `VF_LAST` is false). -/
def Obligations.AddWithCarry : Prop :=
  ∀ (s : State) (x y : Reg), ∃ t, exec (.addReg x y) s = .next t ∧
    (∀ sum flag, sum = (s.reg x).toNat + (s.reg y).toNat → flag = (if sum > 255 then 1 else 0) →
      (x ≠ VF → (t.reg x).toNat = sum % 256 ∧ (t.reg VF).toNat = flag) ∧
      (x = VF → (t.reg VF).toNat = if s.params.vfLast then flag else sum % 256)) ∧
    Frame s t [x, VF] [] noBytes

/-- R76, R70: SUB Vx,Vy gives (V[X] − V[Y]) mod 256 and VF = 1 if V[X] >= V[Y] else 0; with X = 15 the flag
is what VF keeps (the difference when `VF_LAST` is false). -/
def Obligations.SubWithNotBorrow : Prop :=
  ∀ (s : State) (x y : Reg), ∃ t, exec (.subReg x y) s = .next t ∧
    (∀ (diff flag : Int), diff = ((s.reg x).toNat - (s.reg y).toNat : Int) % 256 →
      flag = (if (s.reg x).toNat ≥ (s.reg y).toNat then 1 else 0) →
      (x ≠ VF → ((t.reg x).toNat : Int) = diff ∧ ((t.reg VF).toNat : Int) = flag) ∧
      (x = VF → ((t.reg VF).toNat : Int) = if s.params.vfLast then flag else diff)) ∧
    Frame s t [x, VF] [] noBytes

/-- R78, R70: SUBN Vx,Vy gives (V[Y] − V[X]) mod 256 and VF = 1 if V[Y] >= V[X] else 0; with X = 15 the flag
is what VF keeps (the difference when `VF_LAST` is false). -/
def Obligations.SubnWithNotBorrow : Prop :=
  ∀ (s : State) (x y : Reg), ∃ t, exec (.subnReg x y) s = .next t ∧
    (∀ (diff flag : Int), diff = ((s.reg y).toNat - (s.reg x).toNat : Int) % 256 →
      flag = (if (s.reg y).toNat ≥ (s.reg x).toNat then 1 else 0) →
      (x ≠ VF → ((t.reg x).toNat : Int) = diff ∧ ((t.reg VF).toNat : Int) = flag) ∧
      (x = VF → ((t.reg VF).toNat : Int) = if s.params.vfLast then flag else diff)) ∧
    Frame s t [x, VF] [] noBytes

/-- R77, R79, R70: SHR halves the source and puts its bit 0 in VF; SHL doubles it modulo 256 and puts its bit 7
in VF.  The source is V[X], or V[Y] when `SHIFT_SOURCE` is `VY`; with X = 15 the flag is what VF keeps (the
result when `VF_LAST` is false). -/
def Obligations.ShiftsByOne : Prop :=
  ∀ (s : State) (x y : Reg), ∃ t u, exec (.shr x y) s = .next t ∧ exec (.shl x y) s = .next u ∧
    (∀ a, a = (if s.params.shiftSource = .vy then s.reg y else s.reg x).toNat →
      (x ≠ VF → (t.reg x).toNat = a / 2 ∧ (t.reg VF).toNat = a % 2 ∧
        (u.reg x).toNat = a * 2 % 256 ∧ (u.reg VF).toNat = a / 128) ∧
      (x = VF → (t.reg VF).toNat = (if s.params.vfLast then a % 2 else a / 2) ∧
        (u.reg VF).toNat = if s.params.vfLast then a / 128 else a * 2 % 256)) ∧
    Frame s t [x, VF] [] noBytes ∧ Frame s u [x, VF] [] noBytes

/-- R82, the whole table (the spec marks it as derived): the final VF of each flag-writing instruction when X is
15, for Y other than 15 and for Y = 15, under both values of `VF_LAST`, with `SHIFT_SOURCE` at its
default. -/
def Obligations.FinalVfWhenXIsFifteen : Prop :=
  ∀ (s : State) (y : Reg) (v b : Nat), v = (s.reg VF).toNat → b = (s.reg y).toNat →
    s.params.shiftSource = .vx →
    ∃ ta ts tn tr tl, exec (.addReg VF y) s = .next ta ∧ exec (.subReg VF y) s = .next ts ∧
      exec (.subnReg VF y) s = .next tn ∧ exec (.shr VF y) s = .next tr ∧ exec (.shl VF y) s = .next tl ∧
      (s.params.vfLast = true →
        (y ≠ VF → (ta.reg VF).toNat = (if v + b > 255 then 1 else 0) ∧
          (ts.reg VF).toNat = (if v ≥ b then 1 else 0) ∧ (tn.reg VF).toNat = (if b ≥ v then 1 else 0)) ∧
        (y = VF → (ta.reg VF).toNat = (if v ≥ 128 then 1 else 0) ∧
          (ts.reg VF).toNat = 1 ∧ (tn.reg VF).toNat = 1) ∧
        (tr.reg VF).toNat = v % 2 ∧ (tl.reg VF).toNat = v / 128) ∧
      (s.params.vfLast = false →
        (ta.reg VF).toNat = (v + b) % 256 ∧ (ts.reg VF).toNat = (v + 256 - b) % 256 ∧
        (tn.reg VF).toNat = (b + 256 - v) % 256 ∧ (tr.reg VF).toNat = v / 2 ∧
        (tl.reg VF).toNat = v * 2 % 256)

/-! ## Index and random (44_index_random.md) -/

/-- R83, R85: LD I,NNN sets I to NNN zero-extended; ADD I,Vx adds V[X] to I modulo 65536 and writes no
register, VF included. -/
def Obligations.IndexLoadAndAdd : Prop :=
  ∀ (s : State) (nnn : BitVec 12) (x : Reg), ∃ t u,
    exec (.ldI nnn) s = .next t ∧ exec (.addI x) s = .next u ∧
    t.i.toNat = nnn.toNat ∧ u.i.toNat = (s.i.toNat + (s.reg x).toNat) % 65536 ∧
    Frame s t [] [.i] noBytes ∧ Frame s u [] [.i] noBytes

/-- R84: JP V0,NNN sets `pc` to NNN + V0, at most 0x10FE, with no reduction to 12 bits. -/
def Obligations.JpV0AddsV0 : Prop :=
  ∀ (s : State) (nnn : BitVec 12), ∃ t, exec (.jpV0 nnn) s = .next t ∧
    t.pc.toNat = nnn.toNat + (s.reg 0).toNat ∧ t.pc.toNat ≤ 0x10FE ∧ Frame s t [] [.pc] noBytes

/-- R86, R122 over the model's own random source (DESIGN CHOICE, log entry 3): RND Vx,NN takes one byte and
sets V[X] to it masked with NN.  The byte is the head of the supplied stream, any byte at all; where none is
supplied it is the free value of log entry 3, of which this says nothing but that NN masks it. -/
def Obligations.RndMasksOneRandomByte : Prop :=
  ∀ (s : State) (x : Reg) (nn : Byte), ∃ t, exec (.rnd x nn) s = .next t ∧
    (∀ r rest, s.rndIn = r :: rest → t.reg x = r &&& nn ∧ t.rndIn = rest) ∧
    (s.rndIn = [] → t.reg x = Config.rndByte s.rndDraws &&& nn ∧ t.rndIn = []) ∧
    t.rndDraws = s.rndDraws + 1 ∧ (∀ k, nn.getLsbD k = false → (t.reg x).getLsbD k = false) ∧
    Frame s t [x] [.rnd] noBytes

/-- R86, R122 over the model's own random source (DESIGN CHOICE, log entry 3): exactly one random byte is
consumed per execution of RND and none by any other instruction, nor by a STEP that executes none. -/
def Obligations.OnlyRndConsumesRandomBytes : Prop :=
  (∀ (i : Instr) (s t : State), exec i s = .next t → (∀ x nn, i ≠ .rnd x nn) →
    t.rndIn = s.rndIn ∧ t.rndDraws = s.rndDraws) ∧
  (∀ s t : State, engineStep s = .next t → t.rndDraws ≠ s.rndDraws →
    t.rndDraws = s.rndDraws + 1 ∧ ∃ x nn, decode s.params.zeroFamilyExact (s.fetchWord s.pc.toNat) =
      .ok (.rnd x nn))

/-! ## Sprite draw (45_draw.md) -/

/-- R87: where its sprite bytes are in memory (or N = 0), DRW inverts exactly the cells that a set bit of
the sprite lands on, wrapping on both axes; VF is 1 if an inverted cell held 1 before, else 0; `dirty` is set;
the coordinates are the values of V[X] and V[Y] before, X or Y = 15 included.  The model runs R87's pixel loop;
this is R87's own description of what it does. -/
def Obligations.DrwInvertsTheSpriteAndReportsCollision : Prop :=
  ∀ (s : State) (vx vy : Reg) (n : BitVec 4), (n.toNat = 0 ∨ s.i.toNat + n.toNat - 1 ≤ 4095) →
    ∃ t, exec (.drw vx vy n) s = .next t ∧
      (∀ x y, (s.SpriteCovers vx vy n.toNat x y → t.cell x y = !s.cell x y) ∧
        (¬ s.SpriteCovers vx vy n.toNat x y → t.cell x y = s.cell x y)) ∧
      ((∃ x y, s.SpriteCovers vx vy n.toNat x y ∧ s.cell x y = true) → t.reg VF = 1) ∧
      ((¬ ∃ x y, s.SpriteCovers vx vy n.toNat x y ∧ s.cell x y = true) → t.reg VF = 0) ∧
      t.dirty = true ∧ Frame s t [VF] [.fb, .dirty] noBytes

/-- Test property S6 of the document, derived for every sprite, place and display: drawing the same sprite
again at the same place restores the display.  On a clear screen the first draw gives VF = 0 and the second
gives VF = 1 exactly when the sprite has a set bit at all.  (X or Y = 15 is left out because the first draw
overwrites VF, so the second is then at another place.) -/
def Obligations.DrawingTwiceRestoresTheDisplay : Prop :=
  ∀ (s t : State) (vx vy : Reg) (n : BitVec 4), vx ≠ VF → vy ≠ VF →
    (n.toNat = 0 ∨ s.i.toNat + n.toNat - 1 ≤ 4095) → exec (.drw vx vy n) s = .next t →
    ∃ u, exec (.drw vx vy n) t = .next u ∧ (∀ x y, u.cell x y = s.cell x y) ∧
      ((∀ x y, s.cell x y = false) → t.reg VF = 0 ∧
        (u.reg VF = 1 ↔ ∃ r < n.toNat, s.readByte (s.i.toNat + r) ≠ 0))

/-- R89: a DRW with N >= 1 whose sprite bytes pass address 4095 raises MemIndexOutOfRange and does nothing
else, whatever the sprite holds; with N = 0 there is no fault for any I. -/
def Obligations.DrwPastMemoryFaults : Prop :=
  ∀ (s : State) (vx vy : Reg) (n : BitVec 4),
    (n.toNat ≥ 1 → s.i.toNat + n.toNat - 1 > 4095 → ∃ t, exec (.drw vx vy n) s = .next t ∧
      t.faultReport = (true, 4, s.pc - 2, BitVec.ofNat 16 (max s.i.toNat 4096)) ∧
      t.pc = s.pc - 2 ∧ Frame s t [] [.pc, .fault] noBytes) ∧
    (n.toNat = 0 → ∃ t, exec (.drw vx vy n) s = .next t ∧ t.reg VF = 0 ∧ t.dirty = true ∧
      Frame s t [VF] [.dirty] noBytes)

/-! ## Keypad (46_keypad.md) -/

/-- R90, R91: SKP and SKNP test the key whose number is the whole value of V[X]; above 15 they raise
KeyIndexOutOfRange, or under the policy `mask` test the key of the low nibble. -/
def Obligations.KeySkips : Prop :=
  ∀ (s : State) (x : Reg),
    (∀ k : Fin 16, ((s.reg x).toNat = k.val ∨
        (s.params.keyIndexPolicy = .mask ∧ (s.reg x).toNat % 16 = k.val)) → ∃ t u,
      exec (.skp x) s = .next t ∧ exec (.sknp x) s = .next u ∧
      t.pc = (if s.pressed k = true then s.pc + 2 else s.pc) ∧
      u.pc = (if s.pressed k = true then s.pc else s.pc + 2) ∧
      Frame s t [] [.pc] noBytes ∧ Frame s u [] [.pc] noBytes) ∧
    ((s.reg x).toNat > 15 → s.params.keyIndexPolicy = .fault → ∃ t u,
      exec (.skp x) s = .next t ∧ exec (.sknp x) s = .next u ∧
      t.faultReport = (true, 5, s.pc - 2, (s.reg x).setWidth 16) ∧ u.faultReport = t.faultReport ∧
      t.pc = s.pc - 2 ∧ u.pc = s.pc - 2 ∧
      Frame s t [] [.pc, .fault] noBytes ∧ Frame s u [] [.pc, .fault] noBytes)

/-- R92: LD Vx,K takes the smallest pressed key of 1 to 15 into V[X]; if none is pressed, whatever key 0 is,
no register changes and `pc` goes back by 2, so that the retrying STEP as a whole changes no state at
all. -/
def Obligations.KeyWaitTakesTheLowestKeyOrRetries : Prop :=
  ∀ (s : State) (x : Reg),
    (∀ k : Fin 16, k ≠ 0 → s.pressed k = true → (∀ j, j ≠ 0 → j < k → s.pressed j = false) →
      ∃ t, exec (.ldVxK x) s = .next t ∧ (t.reg x).toNat = k.val ∧ Frame s t [x] [] noBytes) ∧
    ((∀ k, k ≠ 0 → s.pressed k = false) →
      (∃ t, exec (.ldVxK x) s = .next t ∧ t.pc = s.pc - 2 ∧ Frame s t [] [.pc] noBytes) ∧
      (s.CanFetch → s.fetchWord s.pc.toNat = encode (.ldVxK x) → engineStep s = .next s))

/-! ## Timers (47_timer_io.md) -/

/-- R93, R94, R95: the three timer transfers move a byte and change nothing else. -/
def Obligations.TimerTransfers : Prop :=
  ∀ (s : State) (x : Reg), ∃ t u w,
    exec (.ldVxDT x) s = .next t ∧ exec (.ldDTVx x) s = .next u ∧ exec (.ldSTVx x) s = .next w ∧
    t.reg x = s.dt ∧ u.dt = s.reg x ∧ w.st = s.reg x ∧ w.soundOn = decide ((s.reg x).toNat ≠ 0) ∧
    Frame s t [x] [] noBytes ∧ Frame s u [] [.dt] noBytes ∧ Frame s w [] [.st] noBytes

/-! ## Font, BCD and block transfer (48_font_bcd_block.md) -/

/-- R96: LD F,Vx sets I to 0x050 + 5 * (V[X] & 15), always the address of a glyph, and reads no memory. -/
def Obligations.FontLookup : Prop :=
  ∀ (s : State) (x : Reg), ∃ t, exec (.ldF x) s = .next t ∧
    t.i.toNat = 0x050 + 5 * ((s.reg x).toNat % 16) ∧ 0x050 ≤ t.i.toNat ∧ t.i.toNat ≤ 0x09B ∧
    Frame s t [] [.i] noBytes

/-- R97: LD B,Vx stores the hundreds, tens and ones digits at I, I + 1, I + 2; if I + 2 exceeds 4095 it raises
MemIndexOutOfRange and stores nothing. -/
def Obligations.BcdStoresThreeDigits : Prop :=
  ∀ (s : State) (x : Reg),
    (s.i.toNat + 2 ≤ 4095 → ∃ t, exec (.ldB x) s = .next t ∧
      (t.readByte s.i.toNat).toNat = (s.reg x).toNat / 100 ∧
      (t.readByte (s.i.toNat + 1)).toNat = (s.reg x).toNat / 10 % 10 ∧
      (t.readByte (s.i.toNat + 2)).toNat = (s.reg x).toNat % 10 ∧
      Frame s t [] [] (s.bytesAtI 3)) ∧
    (s.i.toNat + 2 > 4095 → ∃ t, exec (.ldB x) s = .next t ∧
      t.faultReport = (true, 4, s.pc - 2, BitVec.ofNat 16 (max s.i.toNat 4096)) ∧
      t.pc = s.pc - 2 ∧ Frame s t [] [.pc, .fault] noBytes)

/-- R98: LD [I],Vx stores V0 to VX at I upward and leaves I alone (adds X + 1 modulo 65536 when
`BLOCK_INCREMENTS_I`); if I + X exceeds 4095 it raises MemIndexOutOfRange and stores nothing. -/
def Obligations.BlockStore : Prop :=
  ∀ (s : State) (x : Reg),
    (s.i.toNat + x.val ≤ 4095 → ∃ t, exec (.ldIVx x) s = .next t ∧
      (∀ q : Reg, q.val ≤ x.val → t.readByte (s.i.toNat + q.val) = s.reg q) ∧
      t.i.toNat = (if s.params.blockIncrementsI then (s.i.toNat + x.val + 1) % 65536 else s.i.toNat) ∧
      Frame s t [] [.i] (s.bytesAtI (x.val + 1))) ∧
    (s.i.toNat + x.val > 4095 → ∃ t, exec (.ldIVx x) s = .next t ∧
      t.faultReport = (true, 4, s.pc - 2, BitVec.ofNat 16 (max s.i.toNat 4096)) ∧
      t.pc = s.pc - 2 ∧ Frame s t [] [.pc, .fault] noBytes)

/-- R99: LD Vx,[I] loads V0 to VX from I upward, leaves the registers above VX, and leaves I alone (adds X + 1
modulo 65536 when `BLOCK_INCREMENTS_I`); if I + X exceeds 4095 it raises MemIndexOutOfRange and loads
nothing. -/
def Obligations.BlockLoad : Prop :=
  ∀ (s : State) (x : Reg),
    (s.i.toNat + x.val ≤ 4095 → ∃ t, exec (.ldVxI x) s = .next t ∧
      (∀ q : Reg, q.val ≤ x.val → t.reg q = s.readByte (s.i.toNat + q.val)) ∧
      (∀ q : Reg, x.val < q.val → t.reg q = s.reg q) ∧
      t.i.toNat = (if s.params.blockIncrementsI then (s.i.toNat + x.val + 1) % 65536 else s.i.toNat) ∧
      Frame s t (List.finRange 16) [.i] noBytes) ∧
    (s.i.toNat + x.val > 4095 → ∃ t, exec (.ldVxI x) s = .next t ∧
      t.faultReport = (true, 4, s.pc - 2, BitVec.ofNat 16 (max s.i.toNat 4096)) ∧
      t.pc = s.pc - 2 ∧ Frame s t [] [.pc, .fault] noBytes)

/-! ## Faults and boundary devices (60_exceptions.md) -/

/-- R101, R102: an instruction faults exactly when the condition of its row of the table holds, with the row's
cause and `fault_info`; the fault is precise: nothing but the fault registers and `pc`, which goes back to
the instruction, changes.  If no condition holds the fault registers stay as they were.  The row
FetchOutOfRange is the second clause. -/
def Obligations.FaultsArePreciseAndExactlyThoseOfTheTable : Prop :=
  (∀ (i : Instr) (s : State) (f : FaultKind) (info : Word), fatalCondition i s = some (f, info) →
    exec i s = .next { s with
      halted := true, faultCause := causeCode f, faultPc := s.pc - 2, faultInfo := info,
      pc := s.pc - 2 }) ∧
  (∀ s : State, s.Running → s.pc.toNat + 1 > 4095 →
    engineStep s = .next { s with
      halted := true, faultCause := 1, faultPc := s.pc, faultInfo := s.pc, pc := s.pc }) ∧
  (∀ (i : Instr) (s t : State), fatalCondition i s = none → exec i s = .next t →
    t.faultReport = s.faultReport) ∧
  [FaultKind.fetchOutOfRange, .stackOverflow, .stackUnderflow, .memIndexOutOfRange,
    .keyIndexOutOfRange].map causeCode = [1, 2, 3, 4, 5]

/-- R110: once halted, every STEP returns with no change of any state and no diagnostic, while the other
transactions still act, and none of TICK, KEYS, FRAME_ACK and LOAD clears `halted`. -/
def Obligations.HaltedBlockIgnoresStepsOnly : Prop :=
  ∀ s : State, s.halted = true →
    engineStep s = .next s ∧
    ∀ (tr : Transaction) (t : State), tr ≠ .reset → transact tr s = .next t → t.halted = true ∧
      (tr = .tick → t.dt.toNat = s.dt.toNat - 1 ∧ t.st.toNat = s.st.toNat - 1) ∧
      (∀ k, tr = .keys k → ∀ j : Fin 16, t.pressed j = k[j.val]) ∧
      (tr = .frameAck → t.dirty = false) ∧
      (∀ rom, tr = .load rom → t.pc = 0x200 ∧
        ∀ k, k < min rom.length 3584 → t.readByte (0x200 + k) = rom.getD k 0)

/-- R111: only RESET clears `halted` and the fault registers, and it clears everything else too; after the
first fault no second one occurs and the fault registers keep the first fault's values. -/
def Obligations.OnlyResetLeavesTheHaltedState : Prop :=
  ∀ s t : State, s.halted = true → step s = .next t →
    (s.turn ≠ .reset → t.faultReport = s.faultReport) ∧
    (s.turn = .reset → t.faultReport = (false, 0, 0, 0) ∧
      { t with params := State.reset.params, schedule := [], rndIn := [], rndDraws := 0, diag := [] } =
        State.reset)

/-- R115: TICK decrements each timer that is not zero, each on its own, never below zero, and touches nothing
else. -/
def Obligations.TickCountsDownAndSaturates : Prop :=
  ∀ s : State, ∃ t, transact .tick s = .next t ∧
    t.dt.toNat = (if s.dt.toNat > 0 then s.dt.toNat - 1 else 0) ∧
    t.st.toNat = (if s.st.toNat > 0 then s.st.toNat - 1 else 0) ∧
    Frame s t [] [.dt, .st] noBytes

/-- R117, R119: KEYS replaces all sixteen flags at once, FRAME_ACK clears `dirty`; each touches nothing
else. -/
def Obligations.KeysAndFrameAck : Prop :=
  ∀ (s : State) (k : Vector Bool 16), ∃ t u,
    transact (.keys k) s = .next t ∧ transact .frameAck s = .next u ∧
    (∀ j : Fin 16, t.pressed j = k[j.val]) ∧ u.dirty = false ∧
    Frame s t [] [.key] noBytes ∧ Frame s u [] [.dirty] noBytes

/-- Of R118 and R22 (derived from both): the frame output is 2048 bytes in row-major order, cell (x, y) at
index 64 y + x, each 0 or 1. -/
def Obligations.FrameOutputIsRowMajor : Prop :=
  ∀ s : State, s.frame.length = 2048 ∧
    ∀ (x : Fin 64) (y : Fin 32), s.frame.getD (64 * y.val + x.val) 0xFF = if s.cell x y then 1 else 0

/-- R120: `sound_on` is 1 if ST is not 0, and it changes only when LD ST,Vx, TICK or RESET changes ST. -/
def Obligations.SoundGateFollowsSt : Prop :=
  (∀ s : State, s.soundOn = true ↔ s.st.toNat ≠ 0) ∧
  ∀ s t : State, step s = .next t → t.soundOn ≠ s.soundOn →
    t.st ≠ s.st ∧ (s.turn = .tick ∨ s.turn = .reset ∨
      (s.turn = .step ∧ ∃ x, decode s.params.zeroFamilyExact (s.fetchWord s.pc.toNat) = .ok (.ldSTVx x)))

/-- Derived from R121, over the list of events that the model keeps (DESIGN CHOICE, log entry 4): exactly one
event, the word itself, is appended by a STEP that fetches an unknown word, and none at any other time.  That
the list survives RESET, so that no event is ever withdrawn, is the model's own choice (DESIGN CHOICE, log
entry 5): R121 and R125 do not say it. -/
def Obligations.DiagnosticsAreUnknownWordsInOrder : Prop :=
  ∀ s t : State, step s = .next t →
    (s.turn = .step ∧ s.CanFetch ∧
        wordDefined s.params.zeroFamilyExact (s.fetchWord s.pc.toNat) = false →
      t.diag = s.diag ++ [s.fetchWord s.pc.toNat]) ∧
    (¬ (s.turn = .step ∧ s.CanFetch ∧
        wordDefined s.params.zeroFamilyExact (s.fetchWord s.pc.toNat) = false) → t.diag = s.diag)
end

