-- ==== Sys2Proof/Laws/Memory.lean ====
section
/-! SUPPORT. The laws of memory: what a byte reads as after a write, and that every operation keeps the
canonical form. -/

namespace Sys2Proof.Machine

/-! ## Reading after writing -/

theorem Memory.read_erase (p : Params) (m : Memory) (a a' : Nat) :
    Memory.read p (Memory.erase a m) a' = if a' = a then resetByte p a else Memory.read p m a' := by
  induction m with
  | nil => simp only [Memory.erase, Memory.read]; split <;> simp_all
  | cons c m ih =>
    obtain ⟨k, b⟩ := c
    by_cases hk : a = k
    · subst hk
      rw [Memory.erase, if_pos rfl, ih, Memory.read]
      split <;> simp_all
    · rw [Memory.erase, if_neg hk, Memory.read, ih, Memory.read]
      by_cases h1 : a' = k
      · subst h1; simp [Ne.symm hk]
      · simp [h1]

theorem Memory.read_insert_self (p : Params) (m : Memory) (a : Nat) (b : Byte)
    (h : ∀ c ∈ m, c.1 ≠ a) : Memory.read p (Memory.insert a b m) a = b := by
  induction m with
  | nil => simp [Memory.insert, Memory.read]
  | cons c m ih =>
    obtain ⟨k, b'⟩ := c
    have hk : a ≠ k := fun e => h (k, b') (by simp) e.symm
    rw [Memory.insert]
    split
    · simp [Memory.read]
    · rw [Memory.read, if_neg hk]
      exact ih fun c hc => h c (by simp [hc])

theorem Memory.read_insert_other (p : Params) (m : Memory) (a a' : Nat) (b : Byte) (h : a' ≠ a) :
    Memory.read p (Memory.insert a b m) a' = Memory.read p m a' := by
  induction m with
  | nil => simp [Memory.insert, Memory.read, h]
  | cons c m ih =>
    obtain ⟨k, b'⟩ := c
    rw [Memory.insert]
    split
    · simp [Memory.read, h]
    · rw [Memory.read, ih, Memory.read]

theorem Memory.erase_ne (m : Memory) (a : Nat) : ∀ c ∈ Memory.erase a m, c.1 ≠ a := by
  induction m with
  | nil => simp [Memory.erase]
  | cons c m ih =>
    obtain ⟨k, b⟩ := c
    intro c hc
    rw [Memory.erase] at hc
    split at hc
    · exact ih c hc
    · rcases List.mem_cons.1 hc with rfl | hc
      · simpa using Ne.symm ‹¬a = k›
      · exact ih c hc

/-- A byte reads as the last write to its address left it (R31, R41). -/
theorem Memory.read_write (p : Params) (m : Memory) (a a' : Nat) (b : Byte) :
    Memory.read p (Memory.write p m a b) a' = if a' = a then b else Memory.read p m a' := by
  rw [Memory.write]
  split
  · rename_i hb; rw [Memory.read_erase, hb]
  · by_cases h : a' = a
    · subst h; simp [Memory.read_insert_self _ _ _ _ (Memory.erase_ne m a')]
    · rw [Memory.read_insert_other _ _ _ _ _ h, Memory.read_erase, if_neg h, if_neg h]

/-- Everything a store of consecutive bytes can do: inside the stored bytes, the byte stored; elsewhere,
what was there (R38). -/
theorem Memory.read_store (p : Params) (m : Memory) (a a' : Nat) (bs : List Byte) :
    Memory.read p (Memory.store p m a bs) a' =
      if a ≤ a' ∧ a' < a + bs.length then bs.getD (a' - a) 0 else Memory.read p m a' := by
  induction bs generalizing m a with
  | nil => simp [Memory.store]
  | cons b bs ih =>
    rw [Memory.store, ih, Memory.read_write, List.length_cons]
    by_cases h : a' = a
    · subst h; simp
    · by_cases h2 : a + 1 ≤ a' ∧ a' < a + 1 + bs.length
      · have e : a' - a = (a' - (a + 1)) + 1 := by omega
        rw [if_pos h2, if_pos (by omega), e, List.getD_cons_succ]
      · rw [if_neg h2, if_neg h, if_neg (by omega)]

/-! ## The canonical form -/

theorem Memory.wfFrom_cons (p : Params) (lo a : Nat) (b : Byte) (m : Memory) :
    Memory.wfFrom p lo ((a, b) :: m) = true ↔
      lo ≤ a ∧ a < Config.memSize ∧ b ≠ resetByte p a ∧ Memory.wfFrom p (a + 1) m = true := by
  simp [Memory.wfFrom, and_assoc]

theorem Memory.wfFrom_mono (p : Params) {lo lo' : Nat} (h : lo' ≤ lo) {m : Memory}
    (hm : Memory.wfFrom p lo m = true) : Memory.wfFrom p lo' m = true := by
  cases m with
  | nil => rfl
  | cons c m =>
    rw [Memory.wfFrom_cons] at hm ⊢
    exact ⟨h.trans hm.1, hm.2⟩

theorem Memory.wfFrom_erase (p : Params) (a lo : Nat) {m : Memory}
    (hm : Memory.wfFrom p lo m = true) : Memory.wfFrom p lo (Memory.erase a m) = true := by
  induction m generalizing lo with
  | nil => rfl
  | cons c m ih =>
    obtain ⟨k, b⟩ := c
    rw [Memory.wfFrom_cons] at hm
    rw [Memory.erase]
    split
    · exact ih lo (Memory.wfFrom_mono p (by omega) hm.2.2.2)
    · exact (Memory.wfFrom_cons ..).2 ⟨hm.1, hm.2.1, hm.2.2.1, ih _ hm.2.2.2⟩

theorem Memory.wfFrom_insert (p : Params) {a lo : Nat} {b : Byte} {m : Memory} (hlo : lo ≤ a)
    (ha : a < Config.memSize) (hb : b ≠ resetByte p a) (hne : ∀ c ∈ m, c.1 ≠ a)
    (hm : Memory.wfFrom p lo m = true) : Memory.wfFrom p lo (Memory.insert a b m) = true := by
  induction m generalizing lo with
  | nil => exact (Memory.wfFrom_cons ..).2 ⟨hlo, ha, hb, rfl⟩
  | cons c m ih =>
    obtain ⟨k, b'⟩ := c
    have hk : k ≠ a := hne (k, b') (by simp)
    rw [Memory.wfFrom_cons] at hm
    rw [Memory.insert]
    split
    · exact (Memory.wfFrom_cons ..).2 ⟨hlo, ha, hb,
        (Memory.wfFrom_cons ..).2 ⟨by omega, hm.2.1, hm.2.2.1, hm.2.2.2⟩⟩
    · exact (Memory.wfFrom_cons ..).2 ⟨hm.1, hm.2.1, hm.2.2.1,
        ih (by omega) (fun c hc => hne c (by simp [hc])) hm.2.2.2⟩

/-- A write inside the address space keeps the canonical form. -/
theorem Memory.wf_write (p : Params) {m : Memory} {a : Nat} (b : Byte) (ha : a < Config.memSize)
    (hm : Memory.wf p m = true) : Memory.wf p (Memory.write p m a b) = true := by
  rw [Memory.write]
  split
  · exact Memory.wfFrom_erase p a 0 hm
  · exact Memory.wfFrom_insert p (Nat.zero_le a) ha ‹_› (Memory.erase_ne m a)
      (Memory.wfFrom_erase p a 0 hm)

/-- A store inside the address space keeps the canonical form. -/
theorem Memory.wf_store (p : Params) {m : Memory} {a : Nat} (bs : List Byte)
    (h : a + bs.length ≤ Config.memSize) (hm : Memory.wf p m = true) :
    Memory.wf p (Memory.store p m a bs) = true := by
  induction bs generalizing m a with
  | nil => exact hm
  | cons b bs ih =>
    rw [List.length_cons] at h
    exact ih (by omega) (Memory.wf_write p b (by omega) hm)

/-- Memory after RESET, and RESET's memory under any parameters, is in canonical form. -/
theorem Memory.wf_nil (p : Params) : Memory.wf p [] = true := rfl

theorem reset_mem_wf : Memory.wf State.reset.params State.reset.mem = true := rfl

/-- A memory in canonical form lists an address at most once, so equal contents are equal lists. -/
theorem Memory.wf_ext (p : Params) {m m' : Memory} {lo : Nat} (hm : Memory.wfFrom p lo m = true)
    (hm' : Memory.wfFrom p lo m' = true) (h : ∀ a, Memory.read p m a = Memory.read p m' a) :
    m = m' := by
  have below : ∀ {n : Memory} {lo a : Nat}, Memory.wfFrom p lo n = true → a < lo →
      Memory.read p n a = resetByte p a := by
    intro n
    induction n with
    | nil => intros; rfl
    | cons c n ih =>
      obtain ⟨k, b⟩ := c
      intro lo a hn ha
      rw [Memory.wfFrom_cons] at hn
      rw [Memory.read, if_neg (by omega)]
      exact ih hn.2.2.2 (by omega)
  induction m generalizing m' lo with
  | nil =>
    cases m' with
    | nil => rfl
    | cons c m' =>
      obtain ⟨k, b⟩ := c
      rw [Memory.wfFrom_cons] at hm'
      have := h k
      simp only [Memory.read, if_true] at this
      exact absurd this.symm hm'.2.2.1
  | cons c m ih =>
    obtain ⟨k, b⟩ := c
    rw [Memory.wfFrom_cons] at hm
    cases m' with
    | nil =>
      have := h k
      simp only [Memory.read, if_true] at this
      exact absurd this hm.2.2.1
    | cons c' m' =>
      obtain ⟨k', b'⟩ := c'
      rw [Memory.wfFrom_cons] at hm'
      have hkk : k = k' := by
        rcases Nat.lt_trichotomy k k' with hlt | he | hgt
        · have := h k
          rw [Memory.read, if_pos rfl, Memory.read, if_neg (by omega),
            below hm'.2.2.2 (by omega)] at this
          exact absurd this hm.2.2.1
        · exact he
        · have := h k'
          rw [Memory.read, if_neg (by omega), below hm.2.2.2 (by omega), Memory.read,
            if_pos rfl] at this
          exact absurd this.symm hm'.2.2.1
      subst hkk
      have hb : b = b' := by simpa [Memory.read] using h k
      subst hb
      have hmm : m = m' := by
        refine ih hm.2.2.2 hm'.2.2.2 fun a => ?_
        by_cases ha : a = k
        · subst ha; rw [below hm.2.2.2 (by omega), below hm'.2.2.2 (by omega)]
        · simpa [Memory.read, ha] using h a
      rw [hmm]

end Sys2Proof.Machine
end

