-- ==== Sys2Proof/Laws/State.lean ====
section
/-! SUPPORT. What each named update does to each field of State: one lemma per field per update, so that no
later proof unfolds a record update. -/

namespace Sys2Proof.Machine

variable (s : State)

/-! ## `setReg` -/

@[simp] theorem State.setReg_v (r : Reg) (b : Byte) : (s.setReg r b).v = s.v.set r.val b := rfl
@[simp] theorem State.setReg_pc (r : Reg) (b : Byte) : (s.setReg r b).pc = s.pc := rfl
@[simp] theorem State.setReg_i (r : Reg) (b : Byte) : (s.setReg r b).i = s.i := rfl
@[simp] theorem State.setReg_sp (r : Reg) (b : Byte) : (s.setReg r b).sp = s.sp := rfl
@[simp] theorem State.setReg_stack (r : Reg) (b : Byte) : (s.setReg r b).stack = s.stack := rfl
@[simp] theorem State.setReg_dt (r : Reg) (b : Byte) : (s.setReg r b).dt = s.dt := rfl
@[simp] theorem State.setReg_st (r : Reg) (b : Byte) : (s.setReg r b).st = s.st := rfl
@[simp] theorem State.setReg_dirty (r : Reg) (b : Byte) : (s.setReg r b).dirty = s.dirty := rfl
@[simp] theorem State.setReg_key (r : Reg) (b : Byte) : (s.setReg r b).key = s.key := rfl
@[simp] theorem State.setReg_fb (r : Reg) (b : Byte) : (s.setReg r b).fb = s.fb := rfl
@[simp] theorem State.setReg_mem (r : Reg) (b : Byte) : (s.setReg r b).mem = s.mem := rfl
@[simp] theorem State.setReg_halted (r : Reg) (b : Byte) : (s.setReg r b).halted = s.halted := rfl
@[simp] theorem State.setReg_faultCause (r : Reg) (b : Byte) :
    (s.setReg r b).faultCause = s.faultCause := rfl
@[simp] theorem State.setReg_faultPc (r : Reg) (b : Byte) :
    (s.setReg r b).faultPc = s.faultPc := rfl
@[simp] theorem State.setReg_faultInfo (r : Reg) (b : Byte) :
    (s.setReg r b).faultInfo = s.faultInfo := rfl
@[simp] theorem State.setReg_params (r : Reg) (b : Byte) : (s.setReg r b).params = s.params := rfl
@[simp] theorem State.setReg_schedule (r : Reg) (b : Byte) :
    (s.setReg r b).schedule = s.schedule := rfl
@[simp] theorem State.setReg_rndIn (r : Reg) (b : Byte) : (s.setReg r b).rndIn = s.rndIn := rfl
@[simp] theorem State.setReg_rndDraws (r : Reg) (b : Byte) :
    (s.setReg r b).rndDraws = s.rndDraws := rfl
@[simp] theorem State.setReg_diag (r : Reg) (b : Byte) : (s.setReg r b).diag = s.diag := rfl

/-! ## `setRegs` -/

@[simp] theorem State.setRegs_v (w : Vector Byte 16) : (s.setRegs w).v = w := rfl
@[simp] theorem State.setRegs_pc (w : Vector Byte 16) : (s.setRegs w).pc = s.pc := rfl
@[simp] theorem State.setRegs_i (w : Vector Byte 16) : (s.setRegs w).i = s.i := rfl
@[simp] theorem State.setRegs_sp (w : Vector Byte 16) : (s.setRegs w).sp = s.sp := rfl
@[simp] theorem State.setRegs_stack (w : Vector Byte 16) : (s.setRegs w).stack = s.stack := rfl
@[simp] theorem State.setRegs_dt (w : Vector Byte 16) : (s.setRegs w).dt = s.dt := rfl
@[simp] theorem State.setRegs_st (w : Vector Byte 16) : (s.setRegs w).st = s.st := rfl
@[simp] theorem State.setRegs_dirty (w : Vector Byte 16) : (s.setRegs w).dirty = s.dirty := rfl
@[simp] theorem State.setRegs_key (w : Vector Byte 16) : (s.setRegs w).key = s.key := rfl
@[simp] theorem State.setRegs_fb (w : Vector Byte 16) : (s.setRegs w).fb = s.fb := rfl
@[simp] theorem State.setRegs_mem (w : Vector Byte 16) : (s.setRegs w).mem = s.mem := rfl
@[simp] theorem State.setRegs_halted (w : Vector Byte 16) : (s.setRegs w).halted = s.halted := rfl
@[simp] theorem State.setRegs_faultCause (w : Vector Byte 16) :
    (s.setRegs w).faultCause = s.faultCause := rfl
@[simp] theorem State.setRegs_faultPc (w : Vector Byte 16) :
    (s.setRegs w).faultPc = s.faultPc := rfl
@[simp] theorem State.setRegs_faultInfo (w : Vector Byte 16) :
    (s.setRegs w).faultInfo = s.faultInfo := rfl
@[simp] theorem State.setRegs_params (w : Vector Byte 16) : (s.setRegs w).params = s.params := rfl
@[simp] theorem State.setRegs_schedule (w : Vector Byte 16) :
    (s.setRegs w).schedule = s.schedule := rfl
@[simp] theorem State.setRegs_rndIn (w : Vector Byte 16) : (s.setRegs w).rndIn = s.rndIn := rfl
@[simp] theorem State.setRegs_rndDraws (w : Vector Byte 16) :
    (s.setRegs w).rndDraws = s.rndDraws := rfl
@[simp] theorem State.setRegs_diag (w : Vector Byte 16) : (s.setRegs w).diag = s.diag := rfl

/-! ## `setPc` -/

@[simp] theorem State.setPc_v (w : Word) : (s.setPc w).v = s.v := rfl
@[simp] theorem State.setPc_pc (w : Word) : (s.setPc w).pc = w := rfl
@[simp] theorem State.setPc_i (w : Word) : (s.setPc w).i = s.i := rfl
@[simp] theorem State.setPc_sp (w : Word) : (s.setPc w).sp = s.sp := rfl
@[simp] theorem State.setPc_stack (w : Word) : (s.setPc w).stack = s.stack := rfl
@[simp] theorem State.setPc_dt (w : Word) : (s.setPc w).dt = s.dt := rfl
@[simp] theorem State.setPc_st (w : Word) : (s.setPc w).st = s.st := rfl
@[simp] theorem State.setPc_dirty (w : Word) : (s.setPc w).dirty = s.dirty := rfl
@[simp] theorem State.setPc_key (w : Word) : (s.setPc w).key = s.key := rfl
@[simp] theorem State.setPc_fb (w : Word) : (s.setPc w).fb = s.fb := rfl
@[simp] theorem State.setPc_mem (w : Word) : (s.setPc w).mem = s.mem := rfl
@[simp] theorem State.setPc_halted (w : Word) : (s.setPc w).halted = s.halted := rfl
@[simp] theorem State.setPc_faultCause (w : Word) : (s.setPc w).faultCause = s.faultCause := rfl
@[simp] theorem State.setPc_faultPc (w : Word) : (s.setPc w).faultPc = s.faultPc := rfl
@[simp] theorem State.setPc_faultInfo (w : Word) : (s.setPc w).faultInfo = s.faultInfo := rfl
@[simp] theorem State.setPc_params (w : Word) : (s.setPc w).params = s.params := rfl
@[simp] theorem State.setPc_schedule (w : Word) : (s.setPc w).schedule = s.schedule := rfl
@[simp] theorem State.setPc_rndIn (w : Word) : (s.setPc w).rndIn = s.rndIn := rfl
@[simp] theorem State.setPc_rndDraws (w : Word) : (s.setPc w).rndDraws = s.rndDraws := rfl
@[simp] theorem State.setPc_diag (w : Word) : (s.setPc w).diag = s.diag := rfl

/-! ## `setI` -/

@[simp] theorem State.setI_v (w : Word) : (s.setI w).v = s.v := rfl
@[simp] theorem State.setI_pc (w : Word) : (s.setI w).pc = s.pc := rfl
@[simp] theorem State.setI_i (w : Word) : (s.setI w).i = w := rfl
@[simp] theorem State.setI_sp (w : Word) : (s.setI w).sp = s.sp := rfl
@[simp] theorem State.setI_stack (w : Word) : (s.setI w).stack = s.stack := rfl
@[simp] theorem State.setI_dt (w : Word) : (s.setI w).dt = s.dt := rfl
@[simp] theorem State.setI_st (w : Word) : (s.setI w).st = s.st := rfl
@[simp] theorem State.setI_dirty (w : Word) : (s.setI w).dirty = s.dirty := rfl
@[simp] theorem State.setI_key (w : Word) : (s.setI w).key = s.key := rfl
@[simp] theorem State.setI_fb (w : Word) : (s.setI w).fb = s.fb := rfl
@[simp] theorem State.setI_mem (w : Word) : (s.setI w).mem = s.mem := rfl
@[simp] theorem State.setI_halted (w : Word) : (s.setI w).halted = s.halted := rfl
@[simp] theorem State.setI_faultCause (w : Word) : (s.setI w).faultCause = s.faultCause := rfl
@[simp] theorem State.setI_faultPc (w : Word) : (s.setI w).faultPc = s.faultPc := rfl
@[simp] theorem State.setI_faultInfo (w : Word) : (s.setI w).faultInfo = s.faultInfo := rfl
@[simp] theorem State.setI_params (w : Word) : (s.setI w).params = s.params := rfl
@[simp] theorem State.setI_schedule (w : Word) : (s.setI w).schedule = s.schedule := rfl
@[simp] theorem State.setI_rndIn (w : Word) : (s.setI w).rndIn = s.rndIn := rfl
@[simp] theorem State.setI_rndDraws (w : Word) : (s.setI w).rndDraws = s.rndDraws := rfl
@[simp] theorem State.setI_diag (w : Word) : (s.setI w).diag = s.diag := rfl

/-! ## `setSp` -/

@[simp] theorem State.setSp_v (b : Byte) : (s.setSp b).v = s.v := rfl
@[simp] theorem State.setSp_pc (b : Byte) : (s.setSp b).pc = s.pc := rfl
@[simp] theorem State.setSp_i (b : Byte) : (s.setSp b).i = s.i := rfl
@[simp] theorem State.setSp_sp (b : Byte) : (s.setSp b).sp = b := rfl
@[simp] theorem State.setSp_stack (b : Byte) : (s.setSp b).stack = s.stack := rfl
@[simp] theorem State.setSp_dt (b : Byte) : (s.setSp b).dt = s.dt := rfl
@[simp] theorem State.setSp_st (b : Byte) : (s.setSp b).st = s.st := rfl
@[simp] theorem State.setSp_dirty (b : Byte) : (s.setSp b).dirty = s.dirty := rfl
@[simp] theorem State.setSp_key (b : Byte) : (s.setSp b).key = s.key := rfl
@[simp] theorem State.setSp_fb (b : Byte) : (s.setSp b).fb = s.fb := rfl
@[simp] theorem State.setSp_mem (b : Byte) : (s.setSp b).mem = s.mem := rfl
@[simp] theorem State.setSp_halted (b : Byte) : (s.setSp b).halted = s.halted := rfl
@[simp] theorem State.setSp_faultCause (b : Byte) : (s.setSp b).faultCause = s.faultCause := rfl
@[simp] theorem State.setSp_faultPc (b : Byte) : (s.setSp b).faultPc = s.faultPc := rfl
@[simp] theorem State.setSp_faultInfo (b : Byte) : (s.setSp b).faultInfo = s.faultInfo := rfl
@[simp] theorem State.setSp_params (b : Byte) : (s.setSp b).params = s.params := rfl
@[simp] theorem State.setSp_schedule (b : Byte) : (s.setSp b).schedule = s.schedule := rfl
@[simp] theorem State.setSp_rndIn (b : Byte) : (s.setSp b).rndIn = s.rndIn := rfl
@[simp] theorem State.setSp_rndDraws (b : Byte) : (s.setSp b).rndDraws = s.rndDraws := rfl
@[simp] theorem State.setSp_diag (b : Byte) : (s.setSp b).diag = s.diag := rfl

/-! ## `setStackEntry` -/

@[simp] theorem State.setStackEntry_v (k : Fin 16) (w : Word) :
    (s.setStackEntry k w).v = s.v := rfl
@[simp] theorem State.setStackEntry_pc (k : Fin 16) (w : Word) :
    (s.setStackEntry k w).pc = s.pc := rfl
@[simp] theorem State.setStackEntry_i (k : Fin 16) (w : Word) :
    (s.setStackEntry k w).i = s.i := rfl
@[simp] theorem State.setStackEntry_sp (k : Fin 16) (w : Word) :
    (s.setStackEntry k w).sp = s.sp := rfl
@[simp] theorem State.setStackEntry_stack (k : Fin 16) (w : Word) :
    (s.setStackEntry k w).stack = s.stack.set k.val w := rfl
@[simp] theorem State.setStackEntry_dt (k : Fin 16) (w : Word) :
    (s.setStackEntry k w).dt = s.dt := rfl
@[simp] theorem State.setStackEntry_st (k : Fin 16) (w : Word) :
    (s.setStackEntry k w).st = s.st := rfl
@[simp] theorem State.setStackEntry_dirty (k : Fin 16) (w : Word) :
    (s.setStackEntry k w).dirty = s.dirty := rfl
@[simp] theorem State.setStackEntry_key (k : Fin 16) (w : Word) :
    (s.setStackEntry k w).key = s.key := rfl
@[simp] theorem State.setStackEntry_fb (k : Fin 16) (w : Word) :
    (s.setStackEntry k w).fb = s.fb := rfl
@[simp] theorem State.setStackEntry_mem (k : Fin 16) (w : Word) :
    (s.setStackEntry k w).mem = s.mem := rfl
@[simp] theorem State.setStackEntry_halted (k : Fin 16) (w : Word) :
    (s.setStackEntry k w).halted = s.halted := rfl
@[simp] theorem State.setStackEntry_faultCause (k : Fin 16) (w : Word) :
    (s.setStackEntry k w).faultCause = s.faultCause := rfl
@[simp] theorem State.setStackEntry_faultPc (k : Fin 16) (w : Word) :
    (s.setStackEntry k w).faultPc = s.faultPc := rfl
@[simp] theorem State.setStackEntry_faultInfo (k : Fin 16) (w : Word) :
    (s.setStackEntry k w).faultInfo = s.faultInfo := rfl
@[simp] theorem State.setStackEntry_params (k : Fin 16) (w : Word) :
    (s.setStackEntry k w).params = s.params := rfl
@[simp] theorem State.setStackEntry_schedule (k : Fin 16) (w : Word) :
    (s.setStackEntry k w).schedule = s.schedule := rfl
@[simp] theorem State.setStackEntry_rndIn (k : Fin 16) (w : Word) :
    (s.setStackEntry k w).rndIn = s.rndIn := rfl
@[simp] theorem State.setStackEntry_rndDraws (k : Fin 16) (w : Word) :
    (s.setStackEntry k w).rndDraws = s.rndDraws := rfl
@[simp] theorem State.setStackEntry_diag (k : Fin 16) (w : Word) :
    (s.setStackEntry k w).diag = s.diag := rfl

/-! ## `setDt` -/

@[simp] theorem State.setDt_v (b : Byte) : (s.setDt b).v = s.v := rfl
@[simp] theorem State.setDt_pc (b : Byte) : (s.setDt b).pc = s.pc := rfl
@[simp] theorem State.setDt_i (b : Byte) : (s.setDt b).i = s.i := rfl
@[simp] theorem State.setDt_sp (b : Byte) : (s.setDt b).sp = s.sp := rfl
@[simp] theorem State.setDt_stack (b : Byte) : (s.setDt b).stack = s.stack := rfl
@[simp] theorem State.setDt_dt (b : Byte) : (s.setDt b).dt = b := rfl
@[simp] theorem State.setDt_st (b : Byte) : (s.setDt b).st = s.st := rfl
@[simp] theorem State.setDt_dirty (b : Byte) : (s.setDt b).dirty = s.dirty := rfl
@[simp] theorem State.setDt_key (b : Byte) : (s.setDt b).key = s.key := rfl
@[simp] theorem State.setDt_fb (b : Byte) : (s.setDt b).fb = s.fb := rfl
@[simp] theorem State.setDt_mem (b : Byte) : (s.setDt b).mem = s.mem := rfl
@[simp] theorem State.setDt_halted (b : Byte) : (s.setDt b).halted = s.halted := rfl
@[simp] theorem State.setDt_faultCause (b : Byte) : (s.setDt b).faultCause = s.faultCause := rfl
@[simp] theorem State.setDt_faultPc (b : Byte) : (s.setDt b).faultPc = s.faultPc := rfl
@[simp] theorem State.setDt_faultInfo (b : Byte) : (s.setDt b).faultInfo = s.faultInfo := rfl
@[simp] theorem State.setDt_params (b : Byte) : (s.setDt b).params = s.params := rfl
@[simp] theorem State.setDt_schedule (b : Byte) : (s.setDt b).schedule = s.schedule := rfl
@[simp] theorem State.setDt_rndIn (b : Byte) : (s.setDt b).rndIn = s.rndIn := rfl
@[simp] theorem State.setDt_rndDraws (b : Byte) : (s.setDt b).rndDraws = s.rndDraws := rfl
@[simp] theorem State.setDt_diag (b : Byte) : (s.setDt b).diag = s.diag := rfl

/-! ## `setSt` -/

@[simp] theorem State.setSt_v (b : Byte) : (s.setSt b).v = s.v := rfl
@[simp] theorem State.setSt_pc (b : Byte) : (s.setSt b).pc = s.pc := rfl
@[simp] theorem State.setSt_i (b : Byte) : (s.setSt b).i = s.i := rfl
@[simp] theorem State.setSt_sp (b : Byte) : (s.setSt b).sp = s.sp := rfl
@[simp] theorem State.setSt_stack (b : Byte) : (s.setSt b).stack = s.stack := rfl
@[simp] theorem State.setSt_dt (b : Byte) : (s.setSt b).dt = s.dt := rfl
@[simp] theorem State.setSt_st (b : Byte) : (s.setSt b).st = b := rfl
@[simp] theorem State.setSt_dirty (b : Byte) : (s.setSt b).dirty = s.dirty := rfl
@[simp] theorem State.setSt_key (b : Byte) : (s.setSt b).key = s.key := rfl
@[simp] theorem State.setSt_fb (b : Byte) : (s.setSt b).fb = s.fb := rfl
@[simp] theorem State.setSt_mem (b : Byte) : (s.setSt b).mem = s.mem := rfl
@[simp] theorem State.setSt_halted (b : Byte) : (s.setSt b).halted = s.halted := rfl
@[simp] theorem State.setSt_faultCause (b : Byte) : (s.setSt b).faultCause = s.faultCause := rfl
@[simp] theorem State.setSt_faultPc (b : Byte) : (s.setSt b).faultPc = s.faultPc := rfl
@[simp] theorem State.setSt_faultInfo (b : Byte) : (s.setSt b).faultInfo = s.faultInfo := rfl
@[simp] theorem State.setSt_params (b : Byte) : (s.setSt b).params = s.params := rfl
@[simp] theorem State.setSt_schedule (b : Byte) : (s.setSt b).schedule = s.schedule := rfl
@[simp] theorem State.setSt_rndIn (b : Byte) : (s.setSt b).rndIn = s.rndIn := rfl
@[simp] theorem State.setSt_rndDraws (b : Byte) : (s.setSt b).rndDraws = s.rndDraws := rfl
@[simp] theorem State.setSt_diag (b : Byte) : (s.setSt b).diag = s.diag := rfl

/-! ## `setDirty` -/

@[simp] theorem State.setDirty_v (b : Bool) : (s.setDirty b).v = s.v := rfl
@[simp] theorem State.setDirty_pc (b : Bool) : (s.setDirty b).pc = s.pc := rfl
@[simp] theorem State.setDirty_i (b : Bool) : (s.setDirty b).i = s.i := rfl
@[simp] theorem State.setDirty_sp (b : Bool) : (s.setDirty b).sp = s.sp := rfl
@[simp] theorem State.setDirty_stack (b : Bool) : (s.setDirty b).stack = s.stack := rfl
@[simp] theorem State.setDirty_dt (b : Bool) : (s.setDirty b).dt = s.dt := rfl
@[simp] theorem State.setDirty_st (b : Bool) : (s.setDirty b).st = s.st := rfl
@[simp] theorem State.setDirty_dirty (b : Bool) : (s.setDirty b).dirty = b := rfl
@[simp] theorem State.setDirty_key (b : Bool) : (s.setDirty b).key = s.key := rfl
@[simp] theorem State.setDirty_fb (b : Bool) : (s.setDirty b).fb = s.fb := rfl
@[simp] theorem State.setDirty_mem (b : Bool) : (s.setDirty b).mem = s.mem := rfl
@[simp] theorem State.setDirty_halted (b : Bool) : (s.setDirty b).halted = s.halted := rfl
@[simp] theorem State.setDirty_faultCause (b : Bool) :
    (s.setDirty b).faultCause = s.faultCause := rfl
@[simp] theorem State.setDirty_faultPc (b : Bool) : (s.setDirty b).faultPc = s.faultPc := rfl
@[simp] theorem State.setDirty_faultInfo (b : Bool) : (s.setDirty b).faultInfo = s.faultInfo := rfl
@[simp] theorem State.setDirty_params (b : Bool) : (s.setDirty b).params = s.params := rfl
@[simp] theorem State.setDirty_schedule (b : Bool) : (s.setDirty b).schedule = s.schedule := rfl
@[simp] theorem State.setDirty_rndIn (b : Bool) : (s.setDirty b).rndIn = s.rndIn := rfl
@[simp] theorem State.setDirty_rndDraws (b : Bool) : (s.setDirty b).rndDraws = s.rndDraws := rfl
@[simp] theorem State.setDirty_diag (b : Bool) : (s.setDirty b).diag = s.diag := rfl

/-! ## `setKeys` -/

@[simp] theorem State.setKeys_v (k : Vector Bool 16) : (s.setKeys k).v = s.v := rfl
@[simp] theorem State.setKeys_pc (k : Vector Bool 16) : (s.setKeys k).pc = s.pc := rfl
@[simp] theorem State.setKeys_i (k : Vector Bool 16) : (s.setKeys k).i = s.i := rfl
@[simp] theorem State.setKeys_sp (k : Vector Bool 16) : (s.setKeys k).sp = s.sp := rfl
@[simp] theorem State.setKeys_stack (k : Vector Bool 16) : (s.setKeys k).stack = s.stack := rfl
@[simp] theorem State.setKeys_dt (k : Vector Bool 16) : (s.setKeys k).dt = s.dt := rfl
@[simp] theorem State.setKeys_st (k : Vector Bool 16) : (s.setKeys k).st = s.st := rfl
@[simp] theorem State.setKeys_dirty (k : Vector Bool 16) : (s.setKeys k).dirty = s.dirty := rfl
@[simp] theorem State.setKeys_key (k : Vector Bool 16) : (s.setKeys k).key = k := rfl
@[simp] theorem State.setKeys_fb (k : Vector Bool 16) : (s.setKeys k).fb = s.fb := rfl
@[simp] theorem State.setKeys_mem (k : Vector Bool 16) : (s.setKeys k).mem = s.mem := rfl
@[simp] theorem State.setKeys_halted (k : Vector Bool 16) : (s.setKeys k).halted = s.halted := rfl
@[simp] theorem State.setKeys_faultCause (k : Vector Bool 16) :
    (s.setKeys k).faultCause = s.faultCause := rfl
@[simp] theorem State.setKeys_faultPc (k : Vector Bool 16) :
    (s.setKeys k).faultPc = s.faultPc := rfl
@[simp] theorem State.setKeys_faultInfo (k : Vector Bool 16) :
    (s.setKeys k).faultInfo = s.faultInfo := rfl
@[simp] theorem State.setKeys_params (k : Vector Bool 16) : (s.setKeys k).params = s.params := rfl
@[simp] theorem State.setKeys_schedule (k : Vector Bool 16) :
    (s.setKeys k).schedule = s.schedule := rfl
@[simp] theorem State.setKeys_rndIn (k : Vector Bool 16) : (s.setKeys k).rndIn = s.rndIn := rfl
@[simp] theorem State.setKeys_rndDraws (k : Vector Bool 16) :
    (s.setKeys k).rndDraws = s.rndDraws := rfl
@[simp] theorem State.setKeys_diag (k : Vector Bool 16) : (s.setKeys k).diag = s.diag := rfl

/-! ## `setFb` -/

@[simp] theorem State.setFb_v (f : Vector (BitVec 64) 32) : (s.setFb f).v = s.v := rfl
@[simp] theorem State.setFb_pc (f : Vector (BitVec 64) 32) : (s.setFb f).pc = s.pc := rfl
@[simp] theorem State.setFb_i (f : Vector (BitVec 64) 32) : (s.setFb f).i = s.i := rfl
@[simp] theorem State.setFb_sp (f : Vector (BitVec 64) 32) : (s.setFb f).sp = s.sp := rfl
@[simp] theorem State.setFb_stack (f : Vector (BitVec 64) 32) : (s.setFb f).stack = s.stack := rfl
@[simp] theorem State.setFb_dt (f : Vector (BitVec 64) 32) : (s.setFb f).dt = s.dt := rfl
@[simp] theorem State.setFb_st (f : Vector (BitVec 64) 32) : (s.setFb f).st = s.st := rfl
@[simp] theorem State.setFb_dirty (f : Vector (BitVec 64) 32) : (s.setFb f).dirty = s.dirty := rfl
@[simp] theorem State.setFb_key (f : Vector (BitVec 64) 32) : (s.setFb f).key = s.key := rfl
@[simp] theorem State.setFb_fb (f : Vector (BitVec 64) 32) : (s.setFb f).fb = f := rfl
@[simp] theorem State.setFb_mem (f : Vector (BitVec 64) 32) : (s.setFb f).mem = s.mem := rfl
@[simp] theorem State.setFb_halted (f : Vector (BitVec 64) 32) :
    (s.setFb f).halted = s.halted := rfl
@[simp] theorem State.setFb_faultCause (f : Vector (BitVec 64) 32) :
    (s.setFb f).faultCause = s.faultCause := rfl
@[simp] theorem State.setFb_faultPc (f : Vector (BitVec 64) 32) :
    (s.setFb f).faultPc = s.faultPc := rfl
@[simp] theorem State.setFb_faultInfo (f : Vector (BitVec 64) 32) :
    (s.setFb f).faultInfo = s.faultInfo := rfl
@[simp] theorem State.setFb_params (f : Vector (BitVec 64) 32) :
    (s.setFb f).params = s.params := rfl
@[simp] theorem State.setFb_schedule (f : Vector (BitVec 64) 32) :
    (s.setFb f).schedule = s.schedule := rfl
@[simp] theorem State.setFb_rndIn (f : Vector (BitVec 64) 32) : (s.setFb f).rndIn = s.rndIn := rfl
@[simp] theorem State.setFb_rndDraws (f : Vector (BitVec 64) 32) :
    (s.setFb f).rndDraws = s.rndDraws := rfl
@[simp] theorem State.setFb_diag (f : Vector (BitVec 64) 32) : (s.setFb f).diag = s.diag := rfl

/-! ## `storeBytes` -/

@[simp] theorem State.storeBytes_v (a : Nat) (bs : List Byte) : (s.storeBytes a bs).v = s.v := rfl
@[simp] theorem State.storeBytes_pc (a : Nat) (bs : List Byte) :
    (s.storeBytes a bs).pc = s.pc := rfl
@[simp] theorem State.storeBytes_i (a : Nat) (bs : List Byte) : (s.storeBytes a bs).i = s.i := rfl
@[simp] theorem State.storeBytes_sp (a : Nat) (bs : List Byte) :
    (s.storeBytes a bs).sp = s.sp := rfl
@[simp] theorem State.storeBytes_stack (a : Nat) (bs : List Byte) :
    (s.storeBytes a bs).stack = s.stack := rfl
@[simp] theorem State.storeBytes_dt (a : Nat) (bs : List Byte) :
    (s.storeBytes a bs).dt = s.dt := rfl
@[simp] theorem State.storeBytes_st (a : Nat) (bs : List Byte) :
    (s.storeBytes a bs).st = s.st := rfl
@[simp] theorem State.storeBytes_dirty (a : Nat) (bs : List Byte) :
    (s.storeBytes a bs).dirty = s.dirty := rfl
@[simp] theorem State.storeBytes_key (a : Nat) (bs : List Byte) :
    (s.storeBytes a bs).key = s.key := rfl
@[simp] theorem State.storeBytes_fb (a : Nat) (bs : List Byte) :
    (s.storeBytes a bs).fb = s.fb := rfl
@[simp] theorem State.storeBytes_mem (a : Nat) (bs : List Byte) :
    (s.storeBytes a bs).mem = Memory.store s.params s.mem a bs := rfl
@[simp] theorem State.storeBytes_halted (a : Nat) (bs : List Byte) :
    (s.storeBytes a bs).halted = s.halted := rfl
@[simp] theorem State.storeBytes_faultCause (a : Nat) (bs : List Byte) :
    (s.storeBytes a bs).faultCause = s.faultCause := rfl
@[simp] theorem State.storeBytes_faultPc (a : Nat) (bs : List Byte) :
    (s.storeBytes a bs).faultPc = s.faultPc := rfl
@[simp] theorem State.storeBytes_faultInfo (a : Nat) (bs : List Byte) :
    (s.storeBytes a bs).faultInfo = s.faultInfo := rfl
@[simp] theorem State.storeBytes_params (a : Nat) (bs : List Byte) :
    (s.storeBytes a bs).params = s.params := rfl
@[simp] theorem State.storeBytes_schedule (a : Nat) (bs : List Byte) :
    (s.storeBytes a bs).schedule = s.schedule := rfl
@[simp] theorem State.storeBytes_rndIn (a : Nat) (bs : List Byte) :
    (s.storeBytes a bs).rndIn = s.rndIn := rfl
@[simp] theorem State.storeBytes_rndDraws (a : Nat) (bs : List Byte) :
    (s.storeBytes a bs).rndDraws = s.rndDraws := rfl
@[simp] theorem State.storeBytes_diag (a : Nat) (bs : List Byte) :
    (s.storeBytes a bs).diag = s.diag := rfl

/-! ## `rndConsumed` -/

@[simp] theorem State.rndConsumed_v : (s.rndConsumed).v = s.v := rfl
@[simp] theorem State.rndConsumed_pc : (s.rndConsumed).pc = s.pc := rfl
@[simp] theorem State.rndConsumed_i : (s.rndConsumed).i = s.i := rfl
@[simp] theorem State.rndConsumed_sp : (s.rndConsumed).sp = s.sp := rfl
@[simp] theorem State.rndConsumed_stack : (s.rndConsumed).stack = s.stack := rfl
@[simp] theorem State.rndConsumed_dt : (s.rndConsumed).dt = s.dt := rfl
@[simp] theorem State.rndConsumed_st : (s.rndConsumed).st = s.st := rfl
@[simp] theorem State.rndConsumed_dirty : (s.rndConsumed).dirty = s.dirty := rfl
@[simp] theorem State.rndConsumed_key : (s.rndConsumed).key = s.key := rfl
@[simp] theorem State.rndConsumed_fb : (s.rndConsumed).fb = s.fb := rfl
@[simp] theorem State.rndConsumed_mem : (s.rndConsumed).mem = s.mem := rfl
@[simp] theorem State.rndConsumed_halted : (s.rndConsumed).halted = s.halted := rfl
@[simp] theorem State.rndConsumed_faultCause : (s.rndConsumed).faultCause = s.faultCause := rfl
@[simp] theorem State.rndConsumed_faultPc : (s.rndConsumed).faultPc = s.faultPc := rfl
@[simp] theorem State.rndConsumed_faultInfo : (s.rndConsumed).faultInfo = s.faultInfo := rfl
@[simp] theorem State.rndConsumed_params : (s.rndConsumed).params = s.params := rfl
@[simp] theorem State.rndConsumed_schedule : (s.rndConsumed).schedule = s.schedule := rfl
@[simp] theorem State.rndConsumed_rndIn : (s.rndConsumed).rndIn = s.rndIn.tail := rfl
@[simp] theorem State.rndConsumed_rndDraws : (s.rndConsumed).rndDraws = s.rndDraws + 1 := rfl
@[simp] theorem State.rndConsumed_diag : (s.rndConsumed).diag = s.diag := rfl

/-! ## `emitDiag` -/

@[simp] theorem State.emitDiag_v (w : Word) : (s.emitDiag w).v = s.v := rfl
@[simp] theorem State.emitDiag_pc (w : Word) : (s.emitDiag w).pc = s.pc := rfl
@[simp] theorem State.emitDiag_i (w : Word) : (s.emitDiag w).i = s.i := rfl
@[simp] theorem State.emitDiag_sp (w : Word) : (s.emitDiag w).sp = s.sp := rfl
@[simp] theorem State.emitDiag_stack (w : Word) : (s.emitDiag w).stack = s.stack := rfl
@[simp] theorem State.emitDiag_dt (w : Word) : (s.emitDiag w).dt = s.dt := rfl
@[simp] theorem State.emitDiag_st (w : Word) : (s.emitDiag w).st = s.st := rfl
@[simp] theorem State.emitDiag_dirty (w : Word) : (s.emitDiag w).dirty = s.dirty := rfl
@[simp] theorem State.emitDiag_key (w : Word) : (s.emitDiag w).key = s.key := rfl
@[simp] theorem State.emitDiag_fb (w : Word) : (s.emitDiag w).fb = s.fb := rfl
@[simp] theorem State.emitDiag_mem (w : Word) : (s.emitDiag w).mem = s.mem := rfl
@[simp] theorem State.emitDiag_halted (w : Word) : (s.emitDiag w).halted = s.halted := rfl
@[simp] theorem State.emitDiag_faultCause (w : Word) :
    (s.emitDiag w).faultCause = s.faultCause := rfl
@[simp] theorem State.emitDiag_faultPc (w : Word) : (s.emitDiag w).faultPc = s.faultPc := rfl
@[simp] theorem State.emitDiag_faultInfo (w : Word) : (s.emitDiag w).faultInfo = s.faultInfo := rfl
@[simp] theorem State.emitDiag_params (w : Word) : (s.emitDiag w).params = s.params := rfl
@[simp] theorem State.emitDiag_schedule (w : Word) : (s.emitDiag w).schedule = s.schedule := rfl
@[simp] theorem State.emitDiag_rndIn (w : Word) : (s.emitDiag w).rndIn = s.rndIn := rfl
@[simp] theorem State.emitDiag_rndDraws (w : Word) : (s.emitDiag w).rndDraws = s.rndDraws := rfl
@[simp] theorem State.emitDiag_diag (w : Word) : (s.emitDiag w).diag = s.diag ++ [w] := rfl

/-! ## `raiseAt` -/

@[simp] theorem State.raiseAt_v (a : Word) (f : FaultKind) (n : Word) :
    (s.raiseAt a f n).v = s.v := rfl
@[simp] theorem State.raiseAt_pc (a : Word) (f : FaultKind) (n : Word) :
    (s.raiseAt a f n).pc = a := rfl
@[simp] theorem State.raiseAt_i (a : Word) (f : FaultKind) (n : Word) :
    (s.raiseAt a f n).i = s.i := rfl
@[simp] theorem State.raiseAt_sp (a : Word) (f : FaultKind) (n : Word) :
    (s.raiseAt a f n).sp = s.sp := rfl
@[simp] theorem State.raiseAt_stack (a : Word) (f : FaultKind) (n : Word) :
    (s.raiseAt a f n).stack = s.stack := rfl
@[simp] theorem State.raiseAt_dt (a : Word) (f : FaultKind) (n : Word) :
    (s.raiseAt a f n).dt = s.dt := rfl
@[simp] theorem State.raiseAt_st (a : Word) (f : FaultKind) (n : Word) :
    (s.raiseAt a f n).st = s.st := rfl
@[simp] theorem State.raiseAt_dirty (a : Word) (f : FaultKind) (n : Word) :
    (s.raiseAt a f n).dirty = s.dirty := rfl
@[simp] theorem State.raiseAt_key (a : Word) (f : FaultKind) (n : Word) :
    (s.raiseAt a f n).key = s.key := rfl
@[simp] theorem State.raiseAt_fb (a : Word) (f : FaultKind) (n : Word) :
    (s.raiseAt a f n).fb = s.fb := rfl
@[simp] theorem State.raiseAt_mem (a : Word) (f : FaultKind) (n : Word) :
    (s.raiseAt a f n).mem = s.mem := rfl
@[simp] theorem State.raiseAt_halted (a : Word) (f : FaultKind) (n : Word) :
    (s.raiseAt a f n).halted = true := rfl
@[simp] theorem State.raiseAt_faultCause (a : Word) (f : FaultKind) (n : Word) :
    (s.raiseAt a f n).faultCause = causeCode f := rfl
@[simp] theorem State.raiseAt_faultPc (a : Word) (f : FaultKind) (n : Word) :
    (s.raiseAt a f n).faultPc = a := rfl
@[simp] theorem State.raiseAt_faultInfo (a : Word) (f : FaultKind) (n : Word) :
    (s.raiseAt a f n).faultInfo = n := rfl
@[simp] theorem State.raiseAt_params (a : Word) (f : FaultKind) (n : Word) :
    (s.raiseAt a f n).params = s.params := rfl
@[simp] theorem State.raiseAt_schedule (a : Word) (f : FaultKind) (n : Word) :
    (s.raiseAt a f n).schedule = s.schedule := rfl
@[simp] theorem State.raiseAt_rndIn (a : Word) (f : FaultKind) (n : Word) :
    (s.raiseAt a f n).rndIn = s.rndIn := rfl
@[simp] theorem State.raiseAt_rndDraws (a : Word) (f : FaultKind) (n : Word) :
    (s.raiseAt a f n).rndDraws = s.rndDraws := rfl
@[simp] theorem State.raiseAt_diag (a : Word) (f : FaultKind) (n : Word) :
    (s.raiseAt a f n).diag = s.diag := rfl

/-! ## `turnTaken` -/

@[simp] theorem State.turnTaken_v : (s.turnTaken).v = s.v := rfl
@[simp] theorem State.turnTaken_pc : (s.turnTaken).pc = s.pc := rfl
@[simp] theorem State.turnTaken_i : (s.turnTaken).i = s.i := rfl
@[simp] theorem State.turnTaken_sp : (s.turnTaken).sp = s.sp := rfl
@[simp] theorem State.turnTaken_stack : (s.turnTaken).stack = s.stack := rfl
@[simp] theorem State.turnTaken_dt : (s.turnTaken).dt = s.dt := rfl
@[simp] theorem State.turnTaken_st : (s.turnTaken).st = s.st := rfl
@[simp] theorem State.turnTaken_dirty : (s.turnTaken).dirty = s.dirty := rfl
@[simp] theorem State.turnTaken_key : (s.turnTaken).key = s.key := rfl
@[simp] theorem State.turnTaken_fb : (s.turnTaken).fb = s.fb := rfl
@[simp] theorem State.turnTaken_mem : (s.turnTaken).mem = s.mem := rfl
@[simp] theorem State.turnTaken_halted : (s.turnTaken).halted = s.halted := rfl
@[simp] theorem State.turnTaken_faultCause : (s.turnTaken).faultCause = s.faultCause := rfl
@[simp] theorem State.turnTaken_faultPc : (s.turnTaken).faultPc = s.faultPc := rfl
@[simp] theorem State.turnTaken_faultInfo : (s.turnTaken).faultInfo = s.faultInfo := rfl
@[simp] theorem State.turnTaken_params : (s.turnTaken).params = s.params := rfl
@[simp] theorem State.turnTaken_schedule : (s.turnTaken).schedule = s.schedule.tail := rfl
@[simp] theorem State.turnTaken_rndIn : (s.turnTaken).rndIn = s.rndIn := rfl
@[simp] theorem State.turnTaken_rndDraws : (s.turnTaken).rndDraws = s.rndDraws := rfl
@[simp] theorem State.turnTaken_diag : (s.turnTaken).diag = s.diag := rfl

end Sys2Proof.Machine
end

