-- ==== Sys2Proof/Laws/Ops.lean ====
section
/-! SUPPORT. One lemma per shared operation, saying once what it can do; the provers cite these instead of
unfolding the operation. -/

namespace Sys2Proof.Machine

variable (s : State)

/-! ## Registers, stack, keys, cells -/

/-- A register reads as it was last written (R11). -/
@[simp] theorem State.reg_setReg (r q : Reg) (b : Byte) :
    (s.setReg r b).reg q = if q = r then b else s.reg q := by
  simp only [State.reg, State.setReg, Vector.getElem_set, Fin.ext_iff, eq_comm]

/-- An update that leaves the register file alone leaves every register alone. -/
theorem State.reg_congr {s t : State} (h : t.v = s.v) (q : Reg) : t.reg q = s.reg q := by
  simp only [State.reg, h]

/-- Two register files that agree register by register are equal. -/
theorem State.v_ext {s t : State} (h : ∀ q, t.reg q = s.reg q) : t.v = s.v := by
  apply Vector.ext
  intro k hk
  exact h ⟨k, hk⟩

@[simp] theorem State.stackEntry_setStackEntry (k j : Fin 16) (w : Word) :
    (s.setStackEntry k w).stackEntry j = if j = k then w else s.stackEntry j := by
  simp only [State.stackEntry, State.setStackEntry, Vector.getElem_set, Fin.ext_iff, eq_comm]

theorem State.pressed_setKeys (k : Vector Bool 16) (j : Fin 16) :
    (s.setKeys k).pressed j = k[j.val] := rfl

/-- Inverting a cell changes that cell and no other (R87). -/
theorem cellOf_flipCell (fb : Vector (BitVec 64) 32) (x x' : Fin 64) (y y' : Fin 32) :
    cellOf (flipCell fb x y) x' y' =
      if x' = x ∧ y' = y then !cellOf fb x y else cellOf fb x' y' := by
  simp only [cellOf, flipCell, Vector.getElem_set]
  by_cases hy : y' = y
  · subst hy
    by_cases hx : x' = x
    · subst hx; simp
    · have hv : x'.val ≠ x.val := fun e => hx (Fin.ext e)
      simp [hx, hv]
  · have hv : y.val ≠ y'.val := fun e => hy (Fin.ext e.symm)
    simp [hy, hv]

/-- A cleared display has no cell set (R60). -/
theorem cellOf_clear (x : Fin 64) (y : Fin 32) : cellOf (Vector.replicate 32 0) x y = false := by
  simp [cellOf]

/-- Two displays that agree cell by cell are equal. -/
theorem cellOf_ext {fb fb' : Vector (BitVec 64) 32} (h : ∀ x y, cellOf fb x y = cellOf fb' x y) :
    fb = fb' := by
  apply Vector.ext
  intro j hj
  apply BitVec.eq_of_getLsbD_eq
  intro k hk
  exact h ⟨k, hk⟩ ⟨j, hj⟩

/-! ## Memory through the state -/

/-- Everything a store of consecutive bytes does to a byte (R38). -/
theorem State.readByte_storeBytes (a a' : Nat) (bs : List Byte) :
    (s.storeBytes a bs).readByte a' =
      if a ≤ a' ∧ a' < a + bs.length then bs.getD (a' - a) 0 else s.readByte a' :=
  Memory.read_store s.params s.mem a a' bs

/-- A byte of memory depends on the memory and the font parameter alone. -/
theorem State.readByte_congr {s t : State} (hm : t.mem = s.mem) (hp : t.params = s.params) (a : Nat) :
    t.readByte a = s.readByte a := by
  simp only [State.readByte, hm, hp]

@[simp] theorem State.regsUpTo_length (x : Reg) : (s.regsUpTo x).length = x.val + 1 := by
  simp only [State.regsUpTo, List.length_take, Vector.length_toList]
  omega

theorem State.regsUpTo_getD (x : Reg) (k : Nat) (h : k ≤ x.val) :
    (s.regsUpTo x).getD k 0 = s.reg ⟨k, by omega⟩ := by
  simp [State.regsUpTo, State.reg, List.getD_eq_getElem?_getD, Nat.lt_succ_of_le h]

@[simp] theorem decimalDigits_length (v : Byte) : (decimalDigits v).length = 3 := rfl

@[simp] theorem State.spriteBytes_length (n : Nat) : (s.spriteBytes n).length = n := by
  simp [State.spriteBytes]

/-- Register `q` after V0 to VX are loaded from `a` upward (R99). -/
theorem State.reg_loadedRegs (x q : Reg) (a : Nat) :
    (s.setRegs (s.loadedRegs x a)).reg q = if q.val ≤ x.val then s.readByte (a + q.val) else s.reg q := by
  simp [State.reg, State.loadedRegs]

/-! ## The composite operations -/

theorem State.dataInRange_iff (n : Nat) :
    s.dataInRange n = true ↔ n = 0 ∨ s.dataBase + n ≤ 4096 := by
  simp only [State.dataInRange, Bool.or_eq_true, decide_eq_true_eq]
  omega

/-- A data access in range has its effect (R39). -/
theorem State.withData_inRange {n : Nat} {t : State} (h : s.dataInRange n = true) :
    s.withData n t = t := by
  simp [State.withData, h]

/-- A data access out of range raises MemIndexOutOfRange and does nothing else (R39, R106). -/
theorem State.withData_outOfRange {n : Nat} {t : State} (h : s.dataInRange n = false) :
    s.withData n t = s.raise .memIndexOutOfRange s.lowestOutOfRange := by
  simp [State.withData, h]

theorem State.skipIf_eq (c : Bool) : s.skipIf c = s.setPc (if c then s.pc + 2 else s.pc) := by
  cases c <;> rfl

theorem State.raise_eq (f : FaultKind) (n : Word) : s.raise f n = s.raiseAt (s.pc - 2) f n := rfl

theorem State.blockAdvance_eq (n : Nat) :
    s.blockAdvance n =
      s.setI (if s.params.blockIncrementsI then s.i + BitVec.ofNat 16 n else s.i) := by
  rw [State.blockAdvance]; split <;> rfl

theorem State.writeResultFlag_eq (x : Reg) (r f : Byte) :
    s.writeResultFlag x r f = s.setRegs (s.writeResultFlag x r f).v := by
  rw [State.writeResultFlag]; split <;> rfl

/-- What every register holds after a result and a flag are written (R70, R82). -/
theorem State.reg_writeResultFlag (x q : Reg) (r f : Byte) :
    (s.writeResultFlag x r f).reg q =
      if x = VF ∧ q = VF then (if s.params.vfLast then f else r)
      else if q = VF then f else if q = x then r else s.reg q := by
  rw [State.writeResultFlag]
  split
  · simp only [State.reg_setReg]
    by_cases hq : q = VF
    · simp [hq]
    · simp [hq]
  · simp only [State.reg_setReg]
    by_cases hq : q = VF
    · by_cases hx : x = VF
      · simp [hq, hx]
      · simp [hq, hx, Ne.symm hx]
    · simp [hq]

/-- What SKP and SKNP can do (R90, R91). -/
theorem State.skipOnKey_cases (x : Reg) (want : Bool) :
    (∃ k, s.keyNumber x = some k ∧ s.skipOnKey x want = s.skipIf (s.pressed k == want)) ∨
      (s.keyNumber x = none ∧
        s.skipOnKey x want = s.raise .keyIndexOutOfRange (widen (s.reg x))) := by
  rw [State.skipOnKey]
  cases h : s.keyNumber x with
  | some k => exact .inl ⟨k, rfl, rfl⟩
  | none => exact .inr ⟨rfl, rfl⟩

theorem State.keyNumber_small {x : Reg} (h : (s.reg x).toNat < 16) :
    s.keyNumber x = some ⟨(s.reg x).toNat, h⟩ := by
  simp [State.keyNumber, h]

theorem State.keyNumber_none {x : Reg} :
    s.keyNumber x = none ↔ 16 ≤ (s.reg x).toNat ∧ s.params.keyIndexPolicy = .fault := by
  rw [State.keyNumber]
  split
  · simp; omega
  · cases h : s.params.keyIndexPolicy
    · simp; omega
    · simp

/-- The scan finds nothing exactly when keys 1 to 15 are released (R92). -/
theorem State.firstKey_none : s.firstKey = none ↔ ∀ k : Fin 16, k ≠ 0 → s.pressed k = false := by
  have all : ∀ k : Fin 16, k ≠ 0 → k ∈ scanOrder := by decide
  have nz : ∀ k ∈ scanOrder, k ≠ 0 := by decide
  simp only [State.firstKey, List.find?_eq_none, Bool.not_eq_true]
  exact ⟨fun h k hk => h k (all k hk), fun h k hk => h k (nz k hk)⟩

/-! ## Transactions -/

theorem State.doReset_eq : s.doReset = { State.reset with
    params := s.params, schedule := s.schedule, rndIn := s.rndIn, rndDraws := s.rndDraws,
    diag := s.diag } := rfl

theorem State.turn_nil (h : s.schedule = []) : s.turn = .step ∧ s.turnTaken = s := by
  simp only [State.turn, State.turnTaken, h, List.tail_nil, true_and]
  cases s; simp_all

theorem State.turn_cons {t : Transaction} {ts : List Transaction} (h : s.schedule = t :: ts) :
    s.turn = t ∧ s.turnTaken = { s with schedule := ts } := by
  simp [State.turn, State.turnTaken, h]

/-- What the fetch and decode phases can lead to: nothing if halted, FetchOutOfRange, an unknown word, or
the execute phase (R56, R109). -/
theorem fetch_cases :
    (s.halted = true ∧ fetch s = .done s) ∨
    (s.halted = false ∧ 4095 ≤ s.pc.toNat ∧
      fetch s = .done (s.raiseAt s.pc .fetchOutOfRange s.pc)) ∨
    (s.halted = false ∧ s.pc.toNat < 4095 ∧
      (∃ e, decode s.params.zeroFamilyExact (s.fetchWord s.pc.toNat) = .error e) ∧
      fetch s = .done (s.ignoreUnknown (s.fetchWord s.pc.toNat))) ∨
    (s.halted = false ∧ s.pc.toNat < 4095 ∧
      ∃ i, decode s.params.zeroFamilyExact (s.fetchWord s.pc.toNat) = .ok i ∧
        fetch s = .execute i s.advance) := by
  rw [fetch]
  by_cases hh : s.halted = true
  · exact .inl ⟨hh, by simp [hh]⟩
  · have hf : s.halted = false := by simpa using hh
    by_cases hp : s.pc.toNat + 1 > 4095
    · exact .inr (.inl ⟨hf, by omega, by rw [if_neg hh, if_pos hp]⟩)
    · rw [if_neg hh, if_neg hp]
      cases hd : decode s.params.zeroFamilyExact (s.fetchWord s.pc.toNat) with
      | error e => exact .inr (.inr (.inl ⟨hf, by omega, ⟨e, rfl⟩, rfl⟩))
      | ok i => exact .inr (.inr (.inr ⟨hf, by omega, i, rfl, rfl⟩))

end Sys2Proof.Machine
end

