-- ==== Sys2Proof/Laws/Frame.lean ====
section
/-! SUPPORT. Frames: how they compose, and the frame of every named update and shared operation.  An
instruction's frame is a chain of these. -/

namespace Sys2Proof.Machine

variable {s t u : State}

/-! ## Composition -/

theorem Frame.refl (s : State) : Frame s s [] [] noBytes := by
  constructor <;> intros <;> first | rfl | exact ⟨rfl, rfl⟩

/-- A frame may be widened. -/
theorem Frame.mono {r r' : List Reg} {p p' : List Part} {m m' : Nat → Prop} (h : Frame s t r p m)
    (hr : ∀ q ∈ r, q ∈ r') (hp : ∀ q ∈ p, q ∈ p') (hm : ∀ a, m a → m' a) : Frame s t r' p' m' where
  regs q hq := h.regs q fun h' => hq (hr q h')
  pc hq := h.pc fun h' => hq (hp _ h')
  i hq := h.i fun h' => hq (hp _ h')
  sp hq := h.sp fun h' => hq (hp _ h')
  stack hq := h.stack fun h' => hq (hp _ h')
  dt hq := h.dt fun h' => hq (hp _ h')
  st hq := h.st fun h' => hq (hp _ h')
  dirty hq := h.dirty fun h' => hq (hp _ h')
  key hq := h.key fun h' => hq (hp _ h')
  fb hq := h.fb fun h' => hq (hp _ h')
  fault hq := h.fault fun h' => hq (hp _ h')
  rnd hq := h.rnd fun h' => hq (hp _ h')
  diag hq := h.diag fun h' => hq (hp _ h')
  params := h.params
  schedule := h.schedule
  memory a ha := h.memory a fun h' => ha (hm a h')

/-- Two steps inside the same frame make one. -/
theorem Frame.trans {r : List Reg} {p : List Part} {m : Nat → Prop} (h : Frame s t r p m)
    (h' : Frame t u r p m) : Frame s u r p m where
  regs q hq := (h'.regs q hq).trans (h.regs q hq)
  pc hq := (h'.pc hq).trans (h.pc hq)
  i hq := (h'.i hq).trans (h.i hq)
  sp hq := (h'.sp hq).trans (h.sp hq)
  stack hq k := (h'.stack hq k).trans (h.stack hq k)
  dt hq := (h'.dt hq).trans (h.dt hq)
  st hq := (h'.st hq).trans (h.st hq)
  dirty hq := (h'.dirty hq).trans (h.dirty hq)
  key hq k := (h'.key hq k).trans (h.key hq k)
  fb hq x y := (h'.fb hq x y).trans (h.fb hq x y)
  fault hq := (h'.fault hq).trans (h.fault hq)
  rnd hq := ⟨(h'.rnd hq).1.trans (h.rnd hq).1, (h'.rnd hq).2.trans (h.rnd hq).2⟩
  diag hq := (h'.diag hq).trans (h.diag hq)
  params := h'.params.trans h.params
  schedule := h'.schedule.trans h.schedule
  memory a ha := (h'.memory a ha).trans (h.memory a ha)

/-! ## The named updates: each inside any frame that names what it writes -/

variable {r : List Reg} {p : List Part} {m : Nat → Prop}

theorem Frame.setReg (h : Frame s t r p m) {x : Reg} (hx : x ∈ r) (b : Byte) :
    Frame s (t.setReg x b) r p m :=
  { h with
    regs := fun q hq => by
      rw [State.reg_setReg, if_neg fun e : q = x => hq (e ▸ hx)]
      exact h.regs q hq }

theorem Frame.setRegs (h : Frame s t r p m) {v : Vector Byte 16}
    (hv : ∀ q, q ∉ r → (t.setRegs v).reg q = t.reg q) : Frame s (t.setRegs v) r p m :=
  { h with regs := fun q hq => (hv q hq).trans (h.regs q hq) }

theorem Frame.setPc (h : Frame s t r p m) (hp : Part.pc ∈ p) (w : Word) : Frame s (t.setPc w) r p m :=
  { h with pc := fun hq => absurd hp hq }

theorem Frame.setI (h : Frame s t r p m) (hp : Part.i ∈ p) (w : Word) : Frame s (t.setI w) r p m :=
  { h with i := fun hq => absurd hp hq }

theorem Frame.setSp (h : Frame s t r p m) (hp : Part.sp ∈ p) (b : Byte) : Frame s (t.setSp b) r p m :=
  { h with sp := fun hq => absurd hp hq }

theorem Frame.setStackEntry (h : Frame s t r p m) (hp : Part.stack ∈ p) (k : Fin 16) (w : Word) :
    Frame s (t.setStackEntry k w) r p m :=
  { h with stack := fun hq => absurd hp hq }

theorem Frame.setDt (h : Frame s t r p m) (hp : Part.dt ∈ p) (b : Byte) : Frame s (t.setDt b) r p m :=
  { h with dt := fun hq => absurd hp hq }

theorem Frame.setSt (h : Frame s t r p m) (hp : Part.st ∈ p) (b : Byte) : Frame s (t.setSt b) r p m :=
  { h with st := fun hq => absurd hp hq }

theorem Frame.setDirty (h : Frame s t r p m) (hp : Part.dirty ∈ p) (b : Bool) :
    Frame s (t.setDirty b) r p m :=
  { h with dirty := fun hq => absurd hp hq }

theorem Frame.setKeys (h : Frame s t r p m) (hp : Part.key ∈ p) (k : Vector Bool 16) :
    Frame s (t.setKeys k) r p m :=
  { h with key := fun hq => absurd hp hq }

theorem Frame.setFb (h : Frame s t r p m) (hp : Part.fb ∈ p) (f : Vector (BitVec 64) 32) :
    Frame s (t.setFb f) r p m :=
  { h with fb := fun hq => absurd hp hq }

theorem Frame.rndConsumed (h : Frame s t r p m) (hp : Part.rnd ∈ p) : Frame s t.rndConsumed r p m :=
  { h with rnd := fun hq => absurd hp hq }

theorem Frame.emitDiag (h : Frame s t r p m) (hp : Part.diag ∈ p) (w : Word) :
    Frame s (t.emitDiag w) r p m :=
  { h with diag := fun hq => absurd hp hq }

theorem Frame.storeBytes (h : Frame s t r p m) {a : Nat} {bs : List Byte}
    (hm : ∀ a', a ≤ a' → a' < a + bs.length → m a') : Frame s (t.storeBytes a bs) r p m :=
  { h with
    memory := fun a' ha => by
      rw [State.readByte_storeBytes, if_neg fun e => ha (hm a' e.1 e.2)]
      exact h.memory a' ha }

/-! ## The shared operations -/

theorem Frame.skipIf (h : Frame s t r p m) (hp : Part.pc ∈ p) (c : Bool) : Frame s (t.skipIf c) r p m := by
  rw [State.skipIf_eq]
  exact h.setPc hp _

theorem Frame.raiseAt (h : Frame s t r p m) (hp : Part.pc ∈ p) (hf : Part.fault ∈ p) (a : Word)
    (f : FaultKind) (n : Word) : Frame s (t.raiseAt a f n) r p m :=
  { h with pc := fun hq => absurd hp hq, fault := fun hq => absurd hf hq }

theorem Frame.raise (h : Frame s t r p m) (hp : Part.pc ∈ p) (hf : Part.fault ∈ p) (f : FaultKind)
    (n : Word) : Frame s (t.raise f n) r p m := h.raiseAt hp hf _ f n

theorem Frame.blockAdvance (h : Frame s t r p m) (hp : Part.i ∈ p) (n : Nat) :
    Frame s (t.blockAdvance n) r p m := by
  rw [State.blockAdvance_eq]
  exact h.setI hp _

theorem Frame.writeResultFlag (h : Frame s t r p m) {x : Reg} (hx : x ∈ r) (hv : VF ∈ r) (a b : Byte) :
    Frame s (t.writeResultFlag x a b) r p m := by
  rw [State.writeResultFlag]
  split
  · exact (h.setReg hx a).setReg hv b
  · exact (h.setReg hv b).setReg hx a

theorem State.faultReport_raise (s : State) (f : FaultKind) (n : Word) :
    (s.raise f n).faultReport = (true, causeCode f, s.pc - 2, n) := rfl

end Sys2Proof.Machine
end

