-- ==== Sys2Proof/Laws/PerInstr.lean ====
section
/-! SUPPORT. The laws said per instruction, as syntax: the family `EncodesRow`, an instruction's word selects
its own row of R50 and no other constructor's row of the same pattern, and its operands are well formed. -/

namespace Sys2Proof.Laws

/-- The word an instruction encodes to selects the instruction's own row of the opcode map, under either
value of `ZERO_FAMILY_EXACT`, and its operands fit their fields (R46, R50, R51). -/
def EncodesRow.Statement (i : Instr) : Prop :=
  i.WellFormed = true ∧ ∀ exact, (opcodeRow exact i).selects (encode i) = true

/-- A primary nibble in front of twelve bits survives the mask 0xF000. -/
theorem nnn_selects (p : BitVec 4) (m : BitVec 12) :
    encodeNNN p m &&& 0xF000 = p ++ (0 : BitVec 12) := by
  apply BitVec.eq_of_getLsbD_eq
  intro k hk
  simp only [encodeNNN, BitVec.getLsbD_and, BitVec.getLsbD_append]
  interval_cases k <;> simp

theorem xnn_selects (p : BitVec 4) (x : Reg) (b : Byte) :
    encodeXNN p x b &&& 0xF000 = p ++ (0 : BitVec 12) := nnn_selects p (regBits x ++ b)

theorem xyn_selects (p : BitVec 4) (x y : Reg) (n : BitVec 4) :
    encodeXYN p x y n &&& 0xF000 = p ++ (0 : BitVec 12) := nnn_selects p (regBits x ++ (regBits y ++ n))

/-- A primary nibble and the low nibble survive the mask 0xF00F. -/
theorem xy_selects (p : BitVec 4) (x y : Reg) (n : BitVec 4) :
    encodeXYN p x y n &&& 0xF00F = p ++ ((0 : BitVec 8) ++ n) := by
  apply BitVec.eq_of_getLsbD_eq
  intro k hk
  simp only [encodeXYN, BitVec.getLsbD_and, BitVec.getLsbD_append]
  interval_cases k <;> simp

/-- A primary nibble and the low byte survive the mask 0xF0FF. -/
theorem x_selects (p : BitVec 4) (x : Reg) (b : Byte) :
    encodeXNN p x b &&& 0xF0FF = p ++ ((0 : BitVec 4) ++ b) := by
  apply BitVec.eq_of_getLsbD_eq
  intro k hk
  simp only [encodeXNN, BitVec.getLsbD_and, BitVec.getLsbD_append]
  interval_cases k <;> simp

theorem EncodesRow.cls : EncodesRow.Statement .cls :=
  ⟨rfl, by decide⟩

theorem EncodesRow.ret : EncodesRow.Statement .ret :=
  ⟨rfl, by decide⟩

theorem EncodesRow.jp (nnn : BitVec 12) : EncodesRow.Statement (.jp nnn) :=
  ⟨by simp [Instr.WellFormed]; omega, fun _ => decide_eq_true (nnn_selects _ nnn)⟩

theorem EncodesRow.call (nnn : BitVec 12) : EncodesRow.Statement (.call nnn) :=
  ⟨by simp [Instr.WellFormed]; omega, fun _ => decide_eq_true (nnn_selects _ nnn)⟩

theorem EncodesRow.seImm (x : Reg) (nn : Byte) : EncodesRow.Statement (.seImm x nn) :=
  ⟨by simp [Instr.WellFormed]; omega, fun _ => decide_eq_true (xnn_selects _ x nn)⟩

theorem EncodesRow.sneImm (x : Reg) (nn : Byte) : EncodesRow.Statement (.sneImm x nn) :=
  ⟨by simp [Instr.WellFormed]; omega, fun _ => decide_eq_true (xnn_selects _ x nn)⟩

theorem EncodesRow.seReg (x : Reg) (y : Reg) : EncodesRow.Statement (.seReg x y) :=
  ⟨by simp [Instr.WellFormed], fun _ => decide_eq_true (xy_selects _ x y _)⟩

theorem EncodesRow.ldImm (x : Reg) (nn : Byte) : EncodesRow.Statement (.ldImm x nn) :=
  ⟨by simp [Instr.WellFormed]; omega, fun _ => decide_eq_true (xnn_selects _ x nn)⟩

theorem EncodesRow.addImm (x : Reg) (nn : Byte) : EncodesRow.Statement (.addImm x nn) :=
  ⟨by simp [Instr.WellFormed]; omega, fun _ => decide_eq_true (xnn_selects _ x nn)⟩

theorem EncodesRow.ldReg (x : Reg) (y : Reg) : EncodesRow.Statement (.ldReg x y) :=
  ⟨by simp [Instr.WellFormed], fun _ => decide_eq_true (xy_selects _ x y _)⟩

theorem EncodesRow.orReg (x : Reg) (y : Reg) : EncodesRow.Statement (.orReg x y) :=
  ⟨by simp [Instr.WellFormed], fun _ => decide_eq_true (xy_selects _ x y _)⟩

theorem EncodesRow.andReg (x : Reg) (y : Reg) : EncodesRow.Statement (.andReg x y) :=
  ⟨by simp [Instr.WellFormed], fun _ => decide_eq_true (xy_selects _ x y _)⟩

theorem EncodesRow.xorReg (x : Reg) (y : Reg) : EncodesRow.Statement (.xorReg x y) :=
  ⟨by simp [Instr.WellFormed], fun _ => decide_eq_true (xy_selects _ x y _)⟩

theorem EncodesRow.addReg (x : Reg) (y : Reg) : EncodesRow.Statement (.addReg x y) :=
  ⟨by simp [Instr.WellFormed], fun _ => decide_eq_true (xy_selects _ x y _)⟩

theorem EncodesRow.subReg (x : Reg) (y : Reg) : EncodesRow.Statement (.subReg x y) :=
  ⟨by simp [Instr.WellFormed], fun _ => decide_eq_true (xy_selects _ x y _)⟩

theorem EncodesRow.shr (x : Reg) (y : Reg) : EncodesRow.Statement (.shr x y) :=
  ⟨by simp [Instr.WellFormed], fun _ => decide_eq_true (xy_selects _ x y _)⟩

theorem EncodesRow.subnReg (x : Reg) (y : Reg) : EncodesRow.Statement (.subnReg x y) :=
  ⟨by simp [Instr.WellFormed], fun _ => decide_eq_true (xy_selects _ x y _)⟩

theorem EncodesRow.shl (x : Reg) (y : Reg) : EncodesRow.Statement (.shl x y) :=
  ⟨by simp [Instr.WellFormed], fun _ => decide_eq_true (xy_selects _ x y _)⟩

theorem EncodesRow.sneReg (x : Reg) (y : Reg) : EncodesRow.Statement (.sneReg x y) :=
  ⟨by simp [Instr.WellFormed], fun _ => decide_eq_true (xy_selects _ x y _)⟩

theorem EncodesRow.ldI (nnn : BitVec 12) : EncodesRow.Statement (.ldI nnn) :=
  ⟨by simp [Instr.WellFormed]; omega, fun _ => decide_eq_true (nnn_selects _ nnn)⟩

theorem EncodesRow.jpV0 (nnn : BitVec 12) : EncodesRow.Statement (.jpV0 nnn) :=
  ⟨by simp [Instr.WellFormed]; omega, fun _ => decide_eq_true (nnn_selects _ nnn)⟩

theorem EncodesRow.rnd (x : Reg) (nn : Byte) : EncodesRow.Statement (.rnd x nn) :=
  ⟨by simp [Instr.WellFormed]; omega, fun _ => decide_eq_true (xnn_selects _ x nn)⟩

theorem EncodesRow.drw (x : Reg) (y : Reg) (n : BitVec 4) : EncodesRow.Statement (.drw x y n) :=
  ⟨by simp [Instr.WellFormed]; omega, fun _ => decide_eq_true (xyn_selects _ x y n)⟩

theorem EncodesRow.skp (x : Reg) : EncodesRow.Statement (.skp x) :=
  ⟨by simp [Instr.WellFormed], fun _ => decide_eq_true (x_selects _ x _)⟩

theorem EncodesRow.sknp (x : Reg) : EncodesRow.Statement (.sknp x) :=
  ⟨by simp [Instr.WellFormed], fun _ => decide_eq_true (x_selects _ x _)⟩

theorem EncodesRow.ldVxDT (x : Reg) : EncodesRow.Statement (.ldVxDT x) :=
  ⟨by simp [Instr.WellFormed], fun _ => decide_eq_true (x_selects _ x _)⟩

theorem EncodesRow.ldVxK (x : Reg) : EncodesRow.Statement (.ldVxK x) :=
  ⟨by simp [Instr.WellFormed], fun _ => decide_eq_true (x_selects _ x _)⟩

theorem EncodesRow.ldDTVx (x : Reg) : EncodesRow.Statement (.ldDTVx x) :=
  ⟨by simp [Instr.WellFormed], fun _ => decide_eq_true (x_selects _ x _)⟩

theorem EncodesRow.ldSTVx (x : Reg) : EncodesRow.Statement (.ldSTVx x) :=
  ⟨by simp [Instr.WellFormed], fun _ => decide_eq_true (x_selects _ x _)⟩

theorem EncodesRow.addI (x : Reg) : EncodesRow.Statement (.addI x) :=
  ⟨by simp [Instr.WellFormed], fun _ => decide_eq_true (x_selects _ x _)⟩

theorem EncodesRow.ldF (x : Reg) : EncodesRow.Statement (.ldF x) :=
  ⟨by simp [Instr.WellFormed], fun _ => decide_eq_true (x_selects _ x _)⟩

theorem EncodesRow.ldB (x : Reg) : EncodesRow.Statement (.ldB x) :=
  ⟨by simp [Instr.WellFormed], fun _ => decide_eq_true (x_selects _ x _)⟩

theorem EncodesRow.ldIVx (x : Reg) : EncodesRow.Statement (.ldIVx x) :=
  ⟨by simp [Instr.WellFormed], fun _ => decide_eq_true (x_selects _ x _)⟩

theorem EncodesRow.ldVxI (x : Reg) : EncodesRow.Statement (.ldVxI x) :=
  ⟨by simp [Instr.WellFormed], fun _ => decide_eq_true (x_selects _ x _)⟩

/-- Every instruction is well formed: its operands have exactly their fields' widths (R46). -/
theorem instr_wellFormed (i : Instr) : i.WellFormed = true := by
  cases i <;> simp [Instr.WellFormed] <;> omega

end Sys2Proof.Laws
end

