-- ==== Sys2Proof/Tests/Slice0.lean ====
section
/-! SUPPORT. Tests with expected results from 95_test_vectors.md and the rules, and a witness for every
statement that has hypotheses.  A test is one step of a small state; its comment names the vector. -/

namespace Sys2Proof.Tests

open Sys2Proof.Machine

/-! ## Helpers -/

/-- The start state of the vectors: registers zero, `pc` = 0x200. -/
def base : State := { State.reset with pc := 0x200 }

/-- Does a step answer a next state with the property? -/
def ran (r : Result) (p : State → Bool) : Bool :=
  match r with
  | .next t => p t
  | _ => false

/-- One STEP of the word `w` placed at `pc` of `s`: does the state after it have the property? -/
def runs (w : Nat) (s : State) (p : State → Bool) : Bool := ran (step (s.withFetchWord 16 w)) p

/-- `s` under other parameters. -/
def under (p : Params) (s : State) : State := { s with params := p }

def exactZero : Params := { Params.default with zeroFamilyExact := true }
def shiftVy : Params := { Params.default with shiftSource := .vy }
def flagFirst : Params := { Params.default with vfLast := false }
def blockMoves : Params := { Params.default with blockIncrementsI := true }
def keyMask : Params := { Params.default with keyIndexPolicy := .mask }

/-- `base` with a key pressed. -/
def withKeys (ks : List (Fin 16)) : State :=
  { base with key := Vector.ofFn fun k : Fin 16 => ks.contains k }

/-! ## Decoding: the words of R50, every constructor -/

theorem test_decode_flow :
    decode false 0x00E0 = .ok .cls ∧ decode false 0x00EE = .ok .ret ∧ decode false 0x1ABC = .ok (.jp 0xABC) ∧
    decode false 0x2DEF = .ok (.call 0xDEF) := by decide

theorem test_decode_skips :
    decode false 0x3A42 = .ok (.seImm 10 0x42) ∧ decode false 0x4B43 = .ok (.sneImm 11 0x43) ∧
    decode false 0x5120 = .ok (.seReg 1 2) ∧ decode false 0x9340 = .ok (.sneReg 3 4) := by decide

theorem test_decode_immediate :
    decode false 0x6AFF = .ok (.ldImm 10 0xFF) ∧ decode false 0x7C01 = .ok (.addImm 12 0x01) := by decide

theorem test_decode_alu :
    decode false 0x8120 = .ok (.ldReg 1 2) ∧ decode false 0x8341 = .ok (.orReg 3 4) ∧
    decode false 0x8562 = .ok (.andReg 5 6) ∧ decode false 0x8783 = .ok (.xorReg 7 8) ∧
    decode false 0x89A4 = .ok (.addReg 9 10) ∧ decode false 0x8BC5 = .ok (.subReg 11 12) ∧
    decode false 0x8DE6 = .ok (.shr 13 14) ∧ decode false 0x8F07 = .ok (.subnReg 15 0) ∧
    decode false 0x812E = .ok (.shl 1 2) := by decide

theorem test_decode_index_random :
    decode false 0xA2F0 = .ok (.ldI 0x2F0) ∧ decode false 0xB345 = .ok (.jpV0 0x345) ∧
    decode false 0xC10F = .ok (.rnd 1 0x0F) ∧ decode false 0xF31E = .ok (.addI 3) := by decide

theorem test_decode_draw_keypad :
    decode false 0xD12F = .ok (.drw 1 2 15) ∧ decode false 0xE59E = .ok (.skp 5) ∧
    decode false 0xE6A1 = .ok (.sknp 6) ∧ decode false 0xF70A = .ok (.ldVxK 7) := by decide

theorem test_decode_timer_block :
    decode false 0xF807 = .ok (.ldVxDT 8) ∧ decode false 0xF915 = .ok (.ldDTVx 9) ∧
    decode false 0xFA18 = .ok (.ldSTVx 10) ∧ decode false 0xFB29 = .ok (.ldF 11) ∧
    decode false 0xFC33 = .ok (.ldB 12) ∧ decode false 0xFD55 = .ok (.ldIVx 13) ∧
    decode false 0xFE65 = .ok (.ldVxI 14) := by decide

theorem test_encode_words :
    encode Instr.cls = 0x00E0 ∧ encode Instr.ret = 0x00EE ∧ encode (.subReg 11 12) = 0x8BC5 ∧
    encode (.shr 2 0) = 0x8206 ∧ encode (.drw 1 2 5) = 0xD125 ∧ encode (.ldVxI 15) = 0xFF65 := by decide

theorem test_bytes_are_big_endian :
    decodeBytes false [0xA2, 0xF0, 0x60] = .ok (.ldI 0x2F0, [0x60]) ∧
    decodeBytes false [0xA2] = .error .truncated := by decide

/-! ## Well-formedness: each check refuses a word, and each family accepts one (R51 to R54) -/

theorem smoke_zero_family :
    wordDefined false 0x0123 = false ∧ wordDefined false 0x012E = true ∧ wordDefined false 0x0000 = true := by
  decide
theorem smoke_zero_family_exact :
    wordDefined true 0x0000 = false ∧ wordDefined true 0x012E = false ∧ wordDefined true 0x00EE = true := by decide
theorem smoke_five_family : wordDefined false 0x5121 = false ∧ wordDefined false 0x5120 = true := by decide
theorem smoke_eight_family : wordDefined false 0x8018 = false ∧ wordDefined false 0x801E = true := by decide
theorem smoke_nine_family : wordDefined false 0x9AB5 = false ∧ wordDefined false 0x9AB0 = true := by decide
theorem smoke_e_family : wordDefined false 0xE19F = false ∧ wordDefined false 0xE19E = true := by decide
theorem smoke_f_family : wordDefined false 0xF1FF = false ∧ wordDefined false 0xF165 = true := by decide

theorem smoke_decoder_names_the_word :
    decode false 0x0123 = .error (.unknown 0x0123) ∧ decode false 0x5121 = .error (.unknown 0x5121) ∧
    decode false 0x8018 = .error (.unknown 0x8018) ∧ decode false 0x9AB5 = .error (.unknown 0x9AB5) ∧
    decode false 0xE19F = .error (.unknown 0xE19F) ∧ decode false 0xF1FF = .error (.unknown 0xF1FF) ∧
    decode true 0x0000 = .error (.unknown 0) := by decide

/-! ## The host's two functions -/

theorem test_decodeTableWord :
    decodeTableWord 16 0x8014 = some (.addReg 0 1) ∧ decodeTableWord 16 0x5121 = none := by decide
theorem test_withFetchWord_runs_first_after_reset :
    ran (step (State.reset.withFetchWord 16 0x6A07)) (fun t => t.reg 10 = 7 && t.pc = 2) = true := by decide
theorem test_withFetchWord_runs_where_nothing_can_be_fetched :
    runs 0x6A07 { base with pc := 0xFFF, halted := true, schedule := [Transaction.tick] } (fun t =>
      t.reg 10 = 7 && t.schedule = [Transaction.tick]) = true := by decide

/-! ## Fetch and the cycle (vectors F1 to F13) -/

theorem test_fetch_odd_pc :
    runs 0x6007 { base with pc := 0x201 } (fun t => t.reg 0 = 7 && t.pc = 0x203) = true := by decide
theorem test_fetch_last_word :
    runs 0x6001 { base with pc := 0xFFE } (fun t => t.reg 0 = 1 && t.pc = 0x1000 && !t.halted) = true := by decide
theorem test_fetch_past_the_end :
    ran (step { base with pc := 0xFFF }) (fun t =>
      t.faultReport = (true, 1, 0xFFF, 0xFFF) && t.pc = 0xFFF) = true := by decide
theorem test_halted_does_nothing :
    ran (step { base with halted := true, faultCause := 1 }) (fun t => t.pc = 0x200 && t.halted) = true := by decide
theorem test_unknown_word :
    runs 0x8018 (base.setReg 0 1) (fun t =>
      t.pc = 0x202 && t.diag = [0x8018] && t.reg 0 = 1 && !t.halted) = true := by decide
theorem test_zero_family_exact_makes_zero_unknown :
    runs 0x0000 (under exactZero base) (fun t => t.diag = [0x0000] && t.pc = 0x202 && !t.dirty) = true := by decide

/-! ## Display clear and flow (R60, L1 to L8, F12, F13) -/

theorem test_cls_zero_word :
    runs 0x0000 { base with fb := Vector.replicate 32 0xFF } (fun t =>
      t.fb = Vector.replicate 32 0 && t.dirty && t.pc = 0x202) = true := by decide
theorem test_ret_pops :
    runs 0x012E ({ base with sp := 2 }.setStackEntry 1 0x0ABC) (fun t =>
      t.sp = 1 && t.pc = 0xABC && t.stackEntry 1 = 0xABC) = true := by decide
theorem test_ret_underflow :
    runs 0x00EE base (fun t => t.faultReport = (true, 3, 0x200, 0) && t.pc = 0x200 && t.sp = 0) = true := by decide
theorem test_jp : runs 0x1ABC base (fun t => t.pc = 0xABC) = true := by decide
theorem test_call_pushes :
    runs 0x2300 { base with sp := 15, pc := 0x250 } (fun t =>
      t.stackEntry 15 = 0x252 && t.stackEntry 14 = 0 && t.sp = 16 && t.pc = 0x300) = true := by decide
theorem test_call_overflow :
    runs 0x2300 { base with sp := 16, pc := 0x250 } (fun t =>
      t.faultReport = (true, 2, 0x250, 16) && t.pc = 0x250 && t.sp = 16 && t.stackEntry 15 = 0) = true := by decide

/-! ## Skips (K1s to K11s) -/

theorem test_seImm :
    runs 0x3342 (base.setReg 3 0x42) (fun t => t.pc = 0x204) = true ∧
    runs 0x3343 (base.setReg 3 0x42) (fun t => t.pc = 0x202) = true := by decide
theorem test_sneImm :
    runs 0x4342 (base.setReg 3 0x42) (fun t => t.pc = 0x202) = true ∧
    runs 0x4300 (base.setReg 3 0x42) (fun t => t.pc = 0x204) = true := by decide
theorem test_seReg :
    runs 0x5120 ((base.setReg 1 9).setReg 2 9) (fun t => t.pc = 0x204) = true ∧
    runs 0x5120 ((base.setReg 1 9).setReg 2 8) (fun t => t.pc = 0x202) = true := by decide
theorem test_sneReg :
    runs 0x9120 ((base.setReg 1 9).setReg 2 8) (fun t => t.pc = 0x204) = true ∧
    runs 0x9120 ((base.setReg 1 9).setReg 2 9) (fun t => t.pc = 0x202) = true := by decide

/-! ## Immediate (I2, I4, I7) -/

theorem test_ldImm_writes_vf : runs 0x6F00 (base.setReg 15 1) (fun t => t.reg 15 = 0) = true := by decide
theorem test_addImm_wraps_without_flag :
    runs 0x700A (base.setReg 0 250) (fun t => t.reg 0 = 4 && t.reg 15 = 0) = true := by decide
theorem test_addImm_vf_is_the_sum : runs 0x7F03 (base.setReg 15 0xFE) (fun t => t.reg 15 = 1) = true := by decide

/-! ## ALU (A1 to A29) -/

theorem test_ldReg : runs 0x8010 (base.setReg 1 0x64) (fun t => t.reg 0 = 0x64) = true := by decide
theorem test_orReg :
    runs 0x8011 (((base.setReg 0 0xF0).setReg 1 0x0F).setReg 15 1) (fun t =>
      t.reg 0 = 0xFF && t.reg 15 = 1) = true := by decide
theorem test_andReg :
    runs 0x8012 (((base.setReg 0 0xF0).setReg 1 0x3C).setReg 15 1) (fun t =>
      t.reg 0 = 0x30 && t.reg 15 = 1) = true := by decide
theorem test_xorReg :
    runs 0x8013 (((base.setReg 0 0xF0).setReg 1 0x3C).setReg 15 1) (fun t =>
      t.reg 0 = 0xCC && t.reg 15 = 1) = true := by decide
theorem test_addReg_carry :
    runs 0x8014 ((base.setReg 0 210).setReg 1 100) (fun t => t.reg 0 = 54 && t.reg 15 = 1) = true := by decide
theorem test_addReg_x_fifteen :
    runs 0x8F14 ((base.setReg 15 200).setReg 1 100) (fun t => t.reg 15 = 1) = true ∧
    runs 0x8F14 (under flagFirst ((base.setReg 15 200).setReg 1 100)) (fun t => t.reg 15 = 44) = true := by decide
theorem test_subReg_borrow :
    runs 0x8015 ((base.setReg 0 3).setReg 1 5) (fun t => t.reg 0 = 254 && t.reg 15 = 0) = true := by decide
theorem test_subReg_equal :
    runs 0x8015 ((base.setReg 0 7).setReg 1 7) (fun t => t.reg 0 = 0 && t.reg 15 = 1) = true := by decide
theorem test_subnReg :
    runs 0x8017 ((base.setReg 0 3).setReg 1 5) (fun t => t.reg 0 = 2 && t.reg 15 = 1) = true := by decide
theorem test_subnReg_borrow :
    runs 0x8017 ((base.setReg 0 5).setReg 1 3) (fun t => t.reg 0 = 254 && t.reg 15 = 0) = true := by decide
theorem test_shr :
    runs 0x8016 ((base.setReg 0 0x05).setReg 1 0xFF) (fun t => t.reg 0 = 0x02 && t.reg 15 = 1) = true := by decide
theorem test_shr_from_vy :
    runs 0x8016 (under shiftVy ((base.setReg 0 0x05).setReg 1 0xFF)) (fun t =>
      t.reg 0 = 0x7F && t.reg 15 = 1) = true := by decide
theorem test_shl :
    runs 0x800E (base.setReg 0 0x81) (fun t => t.reg 0 = 0x02 && t.reg 15 = 1) = true := by decide
theorem test_shl_x_fifteen :
    runs 0x8F0E (base.setReg 15 0x80) (fun t => t.reg 15 = 1) = true ∧
    runs 0x8F0E (under flagFirst (base.setReg 15 0x80)) (fun t => t.reg 15 = 0) = true := by decide

/-! ## Index and random (X1 to X10) -/

theorem test_ldI : runs 0xAFFF base (fun t => t.i = 0x0FFF) = true := by decide
theorem test_jpV0_reads_v0_only :
    runs 0xB300 ((base.setReg 0 2).setReg 3 0x80) (fun t => t.pc = 0x302) = true := by decide
theorem test_jpV0_past_the_end : runs 0xBFFF (base.setReg 0 0xFF) (fun t => t.pc = 0x10FE) = true := by decide
theorem test_addI_past_twelve_bits :
    runs 0xF01E ({ base with i := 0x0FFF }.setReg 0 1) (fun t => t.i = 0x1000 && t.reg 15 = 0) = true := by decide
theorem test_addI_wraps : runs 0xF01E ({ base with i := 0xFFFF }.setReg 0 2) (fun t => t.i = 1) = true := by decide
theorem test_rnd_masks :
    runs 0xC10F { base with rndIn := [0xA7, 0x55] } (fun t =>
      t.reg 1 = 0x07 && t.rndIn = [0x55] && t.rndDraws = 1) = true := by decide

/-! ## Draw (D1, D2, D4, D7, D9, D11) -/

theorem test_drw_wraps_in_x :
    runs 0xD011 ((({ base with i := 0x300 }.storeBytes 0x300 [0xFF]).setReg 0 60).setReg 1 31) (fun t =>
      t.fb = (Vector.replicate 32 0).set 31 0xF00000000000000F && t.reg 15 = 0 && t.dirty) = true := by decide
theorem test_drw_collision :
    runs 0xD011
      (((({ base with i := 0x300 }.storeBytes 0x300 [0xC0]).setReg 0 70).setReg 1 40).setFb
        ((Vector.replicate 32 0).set 8 0x80)) (fun t =>
      t.fb = (Vector.replicate 32 0).set 8 0x40 && t.reg 15 = 1) = true := by decide

/-! ## Keypad (K1 to K10) -/

theorem test_skp :
    runs 0xE19E ((withKeys [5]).setReg 1 5) (fun t => t.pc = 0x204) = true ∧
    runs 0xE19E (base.setReg 1 5) (fun t => t.pc = 0x202) = true := by decide
theorem test_skp_index_sixteen :
    runs 0xE19E ((withKeys [0]).setReg 1 16) (fun t =>
      t.faultReport = (true, 5, 0x200, 16) && t.pc = 0x200) = true ∧
    runs 0xE19E (under keyMask ((withKeys [0]).setReg 1 16)) (fun t => t.pc = 0x204) = true := by decide
theorem test_sknp :
    runs 0xE1A1 (base.setReg 1 5) (fun t => t.pc = 0x204) = true ∧
    runs 0xE1A1 ((withKeys [5]).setReg 1 5) (fun t => t.pc = 0x202) = true := by decide
theorem test_sknp_index_255 :
    runs 0xE1A1 (base.setReg 1 0xFF) (fun t => t.faultReport = (true, 5, 0x200, 255)) = true := by decide
theorem test_key_wait_ignores_key_zero :
    runs 0xF20A ((withKeys [0]).setReg 2 9) (fun t => t.pc = 0x200 && t.reg 2 = 9) = true := by decide
theorem test_key_wait_takes_the_lowest :
    runs 0xF20A (withKeys [9, 7, 15]) (fun t => t.reg 2 = 7 && t.pc = 0x202) = true := by decide

/-! ## Timers (T1, T6, T7) -/

theorem test_ldDTVx : runs 0xF015 (base.setReg 0 5) (fun t => t.dt = 5 && t.st = 0) = true := by decide
theorem test_ldVxDT : runs 0xF107 { base with dt := 42 } (fun t => t.reg 1 = 42 && t.dt = 42) = true := by decide
theorem test_ldSTVx :
    runs 0xF018 (base.setReg 0 2) (fun t => t.st = 2 && t.soundOn && t.dt = 0) = true := by decide

/-! ## Font, BCD and block transfer (M2, M3, M4, M8 to M11, M14 to M16) -/

theorem test_ldF_low_nibble : runs 0xF029 (base.setReg 0 0x1A) (fun t => t.i = 0x082) = true := by decide
theorem test_ldF_last_glyph : runs 0xF029 (base.setReg 0 0x0F) (fun t => t.i = 0x09B) = true := by decide
theorem test_ldB :
    runs 0xF333 ({ base with i := 0xFFD }.setReg 3 156) (fun t =>
      t.readByte 0xFFD = 1 && t.readByte 0xFFE = 5 && t.readByte 0xFFF = 6 && t.i = 0xFFD) = true := by decide
theorem test_ldB_past_memory :
    runs 0xF333 ({ base with i := 0xFFE }.setReg 3 100) (fun t =>
      t.faultReport = (true, 4, 0x200, 0x1000) && t.readByte 0xFFE = 0 && t.pc = 0x200) = true := by decide
theorem test_ldIVx :
    runs 0xF155 (({ base with i := 0x300 }.setReg 0 0x12).setReg 1 0x08) (fun t =>
      t.readByte 0x300 = 0x12 && t.readByte 0x301 = 0x08 && t.readByte 0x302 = 0 && t.i = 0x300) = true := by decide
theorem test_ldIVx_moves_i :
    runs 0xF155 (under blockMoves ({ base with i := 0x300 }.setReg 2 0x99)) (fun t =>
      t.i = 0x302 && t.readByte 0x302 = 0) = true := by decide
theorem test_ldVxI :
    runs 0xF265 (({ base with i := 0x300 }.storeBytes 0x300 [1, 5, 6, 7]).setReg 3 0x77) (fun t =>
      t.reg 0 = 1 && t.reg 1 = 5 && t.reg 2 = 6 && t.reg 3 = 0x77 && t.i = 0x300) = true := by decide
theorem test_ldVxI_past_memory :
    runs 0xFF65 ({ base with i := 0xFF1 }.setReg 4 9) (fun t =>
      t.faultReport = (true, 4, 0x200, 0x1000) && t.reg 4 = 9 && t.reg 0 = 0) = true := by decide

/-! ## Transactions (T3, T4, R2v to R7v) -/

theorem test_tick :
    ran (step { base with dt := 1, st := 3, schedule := [Transaction.tick] }) (fun t =>
      t.dt = 0 && t.st = 2 && t.pc = 0x200 && t.schedule = []) = true ∧
    ran (step { base with st := 1, halted := true, schedule := [Transaction.tick] }) (fun t =>
      t.dt = 0 && t.st = 0 && !t.soundOn) = true := by decide
theorem test_load :
    ran (step { (base.storeBytes 0x200 [0x12, 0x34, 0x56, 0x78]) with
        pc := 0x300, schedule := [Transaction.load [0xAA, 0xBB]] }) (fun t =>
      t.readByte 0x200 = 0xAA && t.readByte 0x201 = 0xBB && t.readByte 0x202 = 0x56 && t.pc = 0x200) = true := by
  decide
theorem test_reset :
    ran (step { (base.storeBytes 0x300 [1]) with
        halted := true, faultCause := 4, sp := 3, schedule := [Transaction.reset] }) (fun t =>
      t.faultReport = (false, 0, 0, 0) && t.pc = 0 && t.sp = 0 && t.readByte 0x300 = 0 &&
      t.readByte 0x050 = 0xF0 && t.readByte 0x09F = 0x80 && t.readByte 0x04F = 0 && t.readByte 0x0A0 = 0) = true := by
  decide
theorem test_keys :
    ran (step { (withKeys [1]) with
        schedule := [Transaction.keys (Vector.ofFn fun k : Fin 16 => k.val == 3 || k.val == 12)] }) (fun t =>
      t.pressed 3 && t.pressed 12 && !t.pressed 1 && !t.pressed 0) = true := by decide
theorem test_frameAck :
    ran (step { base with
        dirty := true, fb := Vector.replicate 32 1, schedule := [Transaction.frameAck] }) (fun t =>
      !t.dirty && t.fb = Vector.replicate 32 1) = true := by decide

/-! ## Witnesses: for every statement with hypotheses, states and operands that meet them, one for each clause, at
the ends of its range -/

/-- A state of a run: two calls deep, a byte stored, a key pressed. -/
def deep : State := ({ (withKeys [7]) with sp := 2, i := 0x300 }.storeBytes 0x300 [0xC0]).setStackEntry 1 0x0ABC

theorem deep_inv : deep.Inv where
  memWf := by decide
  spLegal := by decide
  pcBound := by decide
  stackBound := by decide
  haltedIffCause := by decide
  causeUsed := by decide
  noFaultInfo := by decide

theorem witness_ResetThenLoad : (3583 : Nat) < 3584 ∧ (0x1FF : Nat) < 0x200 := by decide
theorem witness_LoadCopies :
    0 < min ([0xAA, 0xBB] : List Byte).length 3584 ∧ 3583 < min (List.replicate 3585 (0 : Byte)).length 3584 :=
  ⟨by decide, by rw [List.length_replicate]; decide⟩
theorem witness_EveryStepKeepsTheInvariant : deep.Inv ∧ ∃ t, step deep = .next t := ⟨deep_inv, _, rfl⟩
theorem witness_NoStepStops : base.sp.toNat ≤ 16 ∧ { base with sp := 16 }.sp.toNat ≤ 16 ∧ deep.Inv :=
  ⟨by decide, by decide, deep_inv⟩
theorem witness_OnlyTheListedWriters :
    (∃ t, exec (.jp 0x300) { base with dirty := true } = .next t) ∧ fatalCondition (.jp 0x300) base = none ∧
    (under blockMoves base).params.blockIncrementsI = true ∧ { base with dirty := true }.dirty = true :=
  ⟨⟨_, rfl⟩, rfl, rfl, rfl⟩
theorem witness_VfChanges :
    ran (exec (.addReg 0 1) ((base.setReg 0 210).setReg 1 100)) (fun t =>
      decide (t.reg VF ≠ ((base.setReg 0 210).setReg 1 100).reg VF)) = true := by decide
theorem witness_NoInstructionReads : ∃ t, exec (.drw 0 1 1) deep = .next t := ⟨_, rfl⟩
theorem witness_FetchIsBigEndian : ∃ i u, fetch base = .execute i u := ⟨_, _, rfl⟩
theorem witness_StoredRegisters :
    1 ≤ (1 : Reg).val ∧ { base with i := 4094 }.i.toNat + (1 : Reg).val ≤ 4095 ∧
    ∃ t, exec (.ldIVx 1) { base with i := 4094 } = .next t := ⟨by decide, by decide, _, rfl⟩
theorem witness_DecodeOfEncode : Instr.WellFormed (.drw 15 0 15) = true := by decide
theorem witness_EncodeOfDecode :
    decode false 0x8F0E = .ok (.shl 15 0) ∧ Instr.shl 15 0 ≠ .cls ∧ Instr.shl 15 0 ≠ .ret ∧
    decode true 0x00E0 = .ok .cls := by decide
theorem witness_DecodeSelectsTheRow :
    decode false 0x012E = .ok .ret ∧ (opcodeRow false .ret).selects 0x012E = true ∧
    decode true 0x012E = .error (.unknown 0x012E) ∧ (∀ r ∈ opcodeMap true, r.selects 0x012E = false) := by decide
theorem witness_PatternsDoNotOverlap :
    opcodeRow false (.skp 0) ∈ opcodeMap false ∧ (opcodeRow false (.skp 0)).selects 0xE59E = true := by decide
theorem witness_ZeroFamily :
    (0x0FF0 : Word).toNat / 4096 = 0 ∧ (0x0FF0 : Word).toNat % 16 = 0 ∧ (0x0FFE : Word).toNat % 16 = 14 ∧
    (0x0FFF : Word).toNat % 16 ≠ 0 ∧ (0x0FFF : Word).toNat % 16 ≠ 14 ∧ (0x0FFF : Word).toNat ≠ 0x00E0 ∧
    (0x0FFF : Word).toNat ≠ 0x00EE := by decide
theorem witness_UnknownWord :
    let s := { base with pc := 4094 }.withFetchWord 16 0xF1FF
    s.halted = false ∧ s.pc.toNat + 1 ≤ 4095 ∧
    wordDefined s.params.zeroFamilyExact (s.fetchWord s.pc.toNat) = false := by decide
theorem witness_StepRuns :
    let s := { base with pc := 4094 }.withFetchWord 16 0xD125
    Instr.WellFormed (.drw 1 2 5) = true ∧ s.turn = .step ∧ s.halted = false ∧ s.pc.toNat + 1 ≤ 4095 ∧
    decode s.params.zeroFamilyExact (s.readByte s.pc.toNat ++ s.readByte (s.pc.toNat + 1)) =
      .ok (.drw 1 2 5) := by decide
theorem witness_StepFollowsTheCycle :
    { base with halted := true }.halted = true ∧ base.halted = false ∧
    { base with pc := 4095 }.pc.toNat + 1 > 4095 ∧ { base with pc := 4094 }.pc.toNat + 1 ≤ 4095 ∧
    decode false 0x1200 = .ok (.jp 0x200) ∧ (∀ i, decode false 0x5121 ≠ .ok i) := by
  refine ⟨rfl, rfl, by decide, by decide, by decide, fun i h => ?_⟩
  have e : decode false 0x5121 = .error (.unknown 0x5121) := by decide
  rw [e] at h
  cases h
theorem witness_StepTakesTheNext :
    { base with schedule := [Transaction.tick] }.schedule = Transaction.tick :: [] ∧ base.schedule = [] ∧
    ∃ t, transact .tick base = .next t := ⟨rfl, rfl, _, rfl⟩
theorem witness_Ret :
    base.sp = 0 ∧ { base with sp := 1 }.sp.toNat = (0 : Fin 16).val + 1 ∧
    { base with sp := 16 }.sp.toNat = (15 : Fin 16).val + 1 := by decide
theorem witness_Call :
    { base with sp := 16 }.sp = 16 ∧ base.sp.toNat = (0 : Fin 16).val ∧
    { base with sp := 15 }.sp.toNat = (15 : Fin 16).val := by decide
theorem witness_CallAndRetStop : { base with sp := 17 }.sp.toNat > 16 ∧
    exec .ret { base with sp := 17 } = .fault (.noSuchStackEntry 17) := ⟨by decide, rfl⟩
theorem witness_RetAfterCall :
    { base with sp := 15 }.sp.toNat < 16 ∧ ∃ t, exec (.call 0x300) { base with sp := 15 } = .next t :=
  ⟨by decide, _, rfl⟩
theorem witness_AluFlags :
    (0 : Reg) ≠ VF ∧ (base.setReg 0 255).params.vfLast = true ∧ (under flagFirst base).params.vfLast = false ∧
    (under shiftVy base).params.shiftSource = .vy ∧ base.params.shiftSource = .vx := by decide
theorem witness_Rnd :
    { base with rndIn := [0xA7] }.rndIn = (0xA7 : Byte) :: [] ∧ base.rndIn = [] ∧
    (0x0F : Byte).getLsbD 4 = false := by decide
theorem witness_OnlyRndConsumes :
    (∃ t, exec .cls base = .next t) ∧ (∀ x nn, Instr.cls ≠ .rnd x nn) ∧
    ∃ t, engineStep (base.withFetchWord 16 0xC10F) = .next t ∧
      t.rndDraws ≠ (base.withFetchWord 16 0xC10F).rndDraws :=
  ⟨⟨_, rfl⟩, by decide, _, rfl, by decide⟩
theorem witness_Drw :
    (0 : BitVec 4).toNat = 0 ∧
    { base with i := 4081 }.i.toNat + (15 : BitVec 4).toNat - 1 ≤ 4095 ∧
    deep.SpriteCovers 0 1 1 1 0 ∧ ¬ deep.SpriteCovers 0 1 1 2 0 := by
  refine ⟨by decide, by decide, ⟨0, by decide, 1, by decide, by decide, by decide, by decide⟩, ?_⟩
  rintro ⟨r, hr, c, hc, hx, -, hb⟩
  obtain rfl : r = 0 := by omega
  obtain rfl : c = 2 := by
    have h0 : (deep.reg 0).toNat = 0 := by decide
    rw [h0] at hx
    have h2 : ((2 : Fin 64).val) = 2 := rfl
    omega
  exact absurd hb (by decide)
theorem witness_DrawingTwice :
    (0 : Reg) ≠ VF ∧ (1 : Reg) ≠ VF ∧ deep.i.toNat + (1 : BitVec 4).toNat - 1 ≤ 4095 ∧
    (∃ t, exec (.drw 0 1 1) deep = .next t) ∧ deep.fb = Vector.replicate 32 0 :=
  ⟨by decide, by decide, by decide, ⟨_, rfl⟩, by decide⟩
theorem witness_DrwPastMemory :
    (2 : BitVec 4).toNat ≥ 1 ∧ { base with i := 4095 }.i.toNat + (2 : BitVec 4).toNat - 1 > 4095 ∧
    ran (exec (.drw 0 1 2) { base with i := 4095 }) (fun t => t.faultInfo = 4096) = true ∧
    ran (exec (.drw 0 1 1) { base with i := 0x1234 }) (fun t => t.faultInfo = 0x1234) = true ∧
    ran (exec (.drw 0 1 0) { base with i := 0x2000 }) (fun t => t.dirty && !t.halted) = true := by decide
theorem witness_KeySkips :
    ((base.setReg 1 15).reg 1).toNat = (15 : Fin 16).val ∧
    ((under keyMask (base.setReg 1 16)).params.keyIndexPolicy = .mask ∧
      ((under keyMask (base.setReg 1 16)).reg 1).toNat % 16 = (0 : Fin 16).val) ∧
    ((base.setReg 1 16).reg 1).toNat > 15 ∧ (base.setReg 1 16).params.keyIndexPolicy = .fault := by decide
theorem witness_KeyWait :
    ((15 : Fin 16) ≠ 0 ∧ (withKeys [0, 15]).pressed 15 = true ∧
      ∀ j : Fin 16, j ≠ 0 → j < 15 → (withKeys [0, 15]).pressed j = false) ∧
    (∀ k : Fin 16, k ≠ 0 → (withKeys [0]).pressed k = false) ∧
    let s := (withKeys [0]).withFetchWord 16 0xF30A
    s.halted = false ∧ s.pc.toNat + 1 ≤ 4095 ∧ s.fetchWord s.pc.toNat = encode (.ldVxK 3) := by decide
theorem witness_Bcd :
    { base with i := 4093 }.i.toNat + 2 ≤ 4095 ∧ { base with i := 4094 }.i.toNat + 2 > 4095 := by decide
theorem witness_Blocks :
    { base with i := 4080 }.i.toNat + (15 : Reg).val ≤ 4095 ∧ (15 : Reg).val ≤ (15 : Reg).val ∧
    (14 : Reg).val < (15 : Reg).val ∧ { base with i := 4081 }.i.toNat + (15 : Reg).val > 4095 := by decide
theorem witness_Faults :
    fatalCondition (.call 0) { base with sp := 16 } = some (.stackOverflow, 16) ∧
    fatalCondition .ret base = some (.stackUnderflow, 0) ∧
    fatalCondition (.ldB 3) { base with i := 4094 } = some (.memIndexOutOfRange, 4096) ∧
    fatalCondition (.sknp 1) (base.setReg 1 255) = some (.keyIndexOutOfRange, 255) ∧
    fatalCondition (.skp 1) (under keyMask (base.setReg 1 255)) = none ∧
    base.halted = false ∧ { base with pc := 4095 }.pc.toNat + 1 > 4095 := by decide
theorem witness_Halted :
    let s := { base with halted := true, faultCause := 1, schedule := [Transaction.reset] }
    s.halted = true ∧ s.turn = .reset ∧ Transaction.tick ≠ .reset ∧
    (∃ t, transact .tick s = .next t) ∧ ∃ t, step s = .next t :=
  ⟨rfl, rfl, by decide, ⟨_, rfl⟩, ⟨_, rfl⟩⟩
theorem witness_HaltedStaysHalted :
    let s := { base with halted := true, faultCause := 1 }
    s.halted = true ∧ s.turn ≠ .reset ∧ ∃ t, step s = .next t := ⟨rfl, by decide, _, rfl⟩
theorem witness_SoundGate :
    ran (step ((base.setReg 0 2).withFetchWord 16 0xF018)) (fun t =>
      decide (t.soundOn ≠ ((base.setReg 0 2).withFetchWord 16 0xF018).soundOn)) = true := by decide
theorem witness_Diagnostics :
    let s := base.withFetchWord 16 0x9AB5
    s.turn = .step ∧ s.halted = false ∧ s.pc.toNat + 1 ≤ 4095 ∧
    wordDefined s.params.zeroFamilyExact (s.fetchWord s.pc.toNat) = false ∧
    wordDefined base.params.zeroFamilyExact (base.fetchWord base.pc.toNat) = true ∧
    ran (step s) (fun _ => true) = true := by decide

end Sys2Proof.Tests
end

section
/-! SUPPORT. What an instruction and a transaction write, as frames (10_state.md R28, 60_exceptions.md R101),
and the two statements on the state: the table of reset values (R26) and the table of writers (R28). -/

namespace Sys2Proof.Machine

variable {s t : State} {i : Instr}

/-! ## The table of writers (R28) -/

/-- The parts of the state an instruction that does not fault may write: the rows of R28 beside the registers
and memory. -/
def partsWritten (p : Params) : Instr → List Part
  | .cls | .drw _ _ _ => [.fb, .dirty]
  | .ret => [.sp, .pc]
  | .call _ => [.stack, .sp, .pc]
  | .jp _ | .jpV0 _ | .seImm _ _ | .sneImm _ _ | .seReg _ _ | .sneReg _ _ | .skp _ | .sknp _
  | .ldVxK _ => [.pc]
  | .ldI _ | .addI _ | .ldF _ => [.i]
  | .ldIVx _ | .ldVxI _ => if p.blockIncrementsI then [.i] else []
  | .ldDTVx _ => [.dt]
  | .ldSTVx _ => [.st]
  | .rnd _ _ => [.rnd]
  | .ldImm _ _ | .addImm _ _ | .ldReg _ _ | .orReg _ _ | .andReg _ _ | .xorReg _ _ | .addReg _ _
  | .subReg _ _ | .shr _ _ | .subnReg _ _ | .shl _ _ | .ldVxDT _ | .ldB _ => []

/-- The bytes of memory an instruction may write (R28, R38). -/
def bytesWritten (s : State) : Instr → Nat → Prop
  | .ldB _ => s.bytesAtI 3
  | .ldIVx x => s.bytesAtI (x.val + 1)
  | _ => noBytes

/-- What a fatal condition writes: the fault registers, and `pc` (R101). -/
def faultParts : Option (FaultKind × Word) → List Part
  | none => []
  | some _ => [.pc, .fault]

/-! Who writes each row of R28. -/

theorem pc_notMem_partsWritten (p : Params)
    (hs : ∀ x nn, i ≠ .seImm x nn ∧ i ≠ .sneImm x nn) (hr : ∀ x y, i ≠ .seReg x y ∧ i ≠ .sneReg x y)
    (hk : ∀ x, i ≠ .skp x ∧ i ≠ .sknp x ∧ i ≠ .ldVxK x)
    (hj : ∀ nnn, i ≠ .jp nnn ∧ i ≠ .jpV0 nnn ∧ i ≠ .call nnn) (ht : i ≠ .ret) :
    Part.pc ∉ partsWritten p i := by
  cases i <;> simp_all [partsWritten]

theorem i_notMem_partsWritten (p : Params) (hl : ∀ nnn, i ≠ .ldI nnn) (ha : ∀ x, i ≠ .addI x)
    (hf : ∀ x, i ≠ .ldF x)
    (hb : p.blockIncrementsI = true → (∀ x, i ≠ .ldIVx x) ∧ ∀ x, i ≠ .ldVxI x) :
    Part.i ∉ partsWritten p i := by
  cases i <;> simp_all [partsWritten]

theorem sp_notMem_partsWritten (p : Params) (hc : ∀ nnn, i ≠ .call nnn) (hr : i ≠ .ret) :
    Part.sp ∉ partsWritten p i := by
  cases i <;> simp_all [partsWritten]

theorem stack_notMem_partsWritten (p : Params) (hc : ∀ nnn, i ≠ .call nnn) :
    Part.stack ∉ partsWritten p i := by
  cases i <;> simp_all [partsWritten]

theorem dt_notMem_partsWritten (p : Params) (hd : ∀ x, i ≠ .ldDTVx x) :
    Part.dt ∉ partsWritten p i := by
  cases i <;> simp_all [partsWritten]

theorem st_notMem_partsWritten (p : Params) (hs : ∀ x, i ≠ .ldSTVx x) :
    Part.st ∉ partsWritten p i := by
  cases i <;> simp_all [partsWritten]

theorem fb_dirty_notMem_partsWritten (p : Params) (hc : i ≠ .cls) (hd : ∀ x y n, i ≠ .drw x y n) :
    Part.fb ∉ partsWritten p i ∧ Part.dirty ∉ partsWritten p i := by
  cases i <;> simp_all [partsWritten]

theorem key_fault_notMem_partsWritten (p : Params) (i : Instr) :
    Part.key ∉ partsWritten p i ∧ Part.fault ∉ partsWritten p i := by
  cases i <;> simp [partsWritten]

theorem not_bytesWritten (hb : ∀ x, i ≠ .ldB x) (hx : ∀ x, i ≠ .ldIVx x) (a : Nat) :
    ¬ bytesWritten s i a := by
  cases i <;> simp_all [bytesWritten, noBytes]

theorem notMem_append_faultParts {q : Part} {ps : List Part} (o : Option (FaultKind × Word)) (h : q ∉ ps)
    (hpc : q ≠ .pc := by decide) (hf : q ≠ .fault := by decide) : q ∉ ps ++ faultParts o := by
  cases o <;> simp [faultParts, h, hpc, hf]

/-! ## The fatal conditions (R101, R102) -/

/-- The fatal condition of a data access of `count` bytes is the model's range check (R39, R106). -/
theorem dataFault_eq (s : State) (count : Nat) :
    (if count ≥ 1 ∧ s.i.toNat + count - 1 > 4095 then
      some (FaultKind.memIndexOutOfRange, BitVec.ofNat 16 (max s.i.toNat 4096)) else none) =
      if s.dataInRange count then none else some (.memIndexOutOfRange, s.lowestOutOfRange) := by
  have hr := s.dataInRange_iff count
  rw [State.dataBase] at hr
  by_cases h : s.dataInRange count = true
  · rw [if_pos h, if_neg (by rw [hr] at h; omega)]
  · rw [if_neg h, if_pos (by rw [hr] at h; omega)]
    rfl

/-- The fatal condition of SKP and SKNP is that V[X] names no key (R90, R91, R107). -/
theorem keyFault_eq (s : State) (x : Reg) :
    (if (s.reg x).toNat > 15 ∧ s.params.keyIndexPolicy = .fault then
      some (FaultKind.keyIndexOutOfRange, (s.reg x).setWidth 16) else none) =
      if s.keyNumber x = none then some (.keyIndexOutOfRange, widen (s.reg x)) else none := by
  simp only [s.keyNumber_none]; rfl

theorem fatalCondition_drw (s : State) (x y : Reg) (n : BitVec 4) : fatalCondition (.drw x y n) s =
    if s.dataInRange n.toNat then none else some (.memIndexOutOfRange, s.lowestOutOfRange) :=
  dataFault_eq s n.toNat

theorem fatalCondition_ldB (s : State) (x : Reg) : fatalCondition (.ldB x) s =
    if s.dataInRange 3 then none else some (.memIndexOutOfRange, s.lowestOutOfRange) :=
  dataFault_eq s 3

theorem fatalCondition_ldIVx (s : State) (x : Reg) : fatalCondition (.ldIVx x) s =
    if s.dataInRange (x.val + 1) then none else some (.memIndexOutOfRange, s.lowestOutOfRange) :=
  dataFault_eq s (x.val + 1)

theorem fatalCondition_ldVxI (s : State) (x : Reg) : fatalCondition (.ldVxI x) s =
    if s.dataInRange (x.val + 1) then none else some (.memIndexOutOfRange, s.lowestOutOfRange) :=
  dataFault_eq s (x.val + 1)

theorem fatalCondition_skp (s : State) (x : Reg) : fatalCondition (.skp x) s =
    if s.keyNumber x = none then some (.keyIndexOutOfRange, widen (s.reg x)) else none :=
  keyFault_eq s x

theorem fatalCondition_sknp (s : State) (x : Reg) : fatalCondition (.sknp x) s =
    if s.keyNumber x = none then some (.keyIndexOutOfRange, widen (s.reg x)) else none :=
  keyFault_eq s x

/-- The two outcomes of a data access, told apart by the fatal condition alone. -/
theorem withData_of_dataFault {count : Nat} {e : State} {f : FaultKind} {n : Word}
    (h : (if s.dataInRange count then none else
      some (.memIndexOutOfRange, s.lowestOutOfRange)) = some (f, n)) :
    s.withData count e = s.raise f n := by
  split at h
  · cases h
  next hr => cases h; exact s.withData_outOfRange (by simpa using hr)

theorem withData_of_noDataFault {count : Nat} {e : State}
    (h : (if s.dataInRange count then none else
      some (FaultKind.memIndexOutOfRange, s.lowestOutOfRange)) = none) :
    s.withData count e = e := by
  split at h
  next hr => exact s.withData_inRange hr
  · cases h

theorem skipOnKey_of_keyFault {x : Reg} {want : Bool} {f : FaultKind} {n : Word}
    (h : (if s.keyNumber x = none then some (.keyIndexOutOfRange, widen (s.reg x)) else none) = some (f, n)) :
    s.skipOnKey x want = s.raise f n := by
  split at h
  next hk => cases h; rw [State.skipOnKey, hk]
  · cases h

/-- A fatal condition ends the instruction in the fault mechanism and in nothing else (R101, R102). -/
theorem exec_of_fatalCondition {f : FaultKind} {n : Word} (h : fatalCondition i s = some (f, n)) :
    exec i s = .next (s.raise f n) := by
  cases i with
  | call nnn =>
    simp only [fatalCondition] at h
    split at h
    next hsp => cases h; simp [exec, execCall, hsp]
    · cases h
  | ret =>
    simp only [fatalCondition] at h
    split at h
    next hsp => cases h; simp [exec, execRet, hsp]
    · cases h
  | drw x y k => exact congrArg _ (withData_of_dataFault (fatalCondition_drw s x y k ▸ h))
  | ldB x => exact congrArg _ (withData_of_dataFault (fatalCondition_ldB s x ▸ h))
  | ldIVx x => exact congrArg _ (withData_of_dataFault (fatalCondition_ldIVx s x ▸ h))
  | ldVxI x => exact congrArg _ (withData_of_dataFault (fatalCondition_ldVxI s x ▸ h))
  | skp x => exact congrArg _ (skipOnKey_of_keyFault (fatalCondition_skp s x ▸ h))
  | sknp x => exact congrArg _ (skipOnKey_of_keyFault (fatalCondition_sknp s x ▸ h))
  | _ => cases h

/-! ## The frame of an instruction -/

/-- The frame of a state with itself, widened to any list of parts. -/
theorem Frame.self {r : List Reg} {p : List Part} {m : Nat → Prop} : Frame s s r p m :=
  (Frame.refl s).mono (by simp) (by simp) fun _ h => h.elim

/-- Loading V0 to VX writes the registers V0 to VX (R99). -/
theorem reg_loadedRegs_notMem {x q : Reg} (a : Nat) (hq : q ∉ regsWritten (.ldVxI x)) :
    (s.setRegs (s.loadedRegs x a)).reg q = s.reg q := by
  rw [s.reg_loadedRegs, if_neg fun h => hq (by simpa [regsWritten] using h)]

theorem Frame.skipOnKey {r : List Reg} {p : List Part} {m : Nat → Prop} (hp : Part.pc ∈ p) {x : Reg}
    {want : Bool} (h : (if s.keyNumber x = none then
      some (FaultKind.keyIndexOutOfRange, widen (s.reg x)) else none) = none) :
    Frame s (s.skipOnKey x want) r p m := by
  obtain ⟨k, -, hk⟩ | ⟨hk, -⟩ := s.skipOnKey_cases x want
  · rw [hk]; exact Frame.self.skipIf hp _
  · rw [if_pos hk] at h; cases h

/-- A block transfer writes I only when `BLOCK_INCREMENTS_I` (R98, R99). -/
theorem Frame.blockAdvance_of_param {r : List Reg} {p : List Part} {m : Nat → Prop} (h : Frame s t r p m)
    (hp : s.params.blockIncrementsI = true → Part.i ∈ p) (n : Nat) :
    Frame s (t.blockAdvance n) r p m := by
  by_cases hb : s.params.blockIncrementsI = true
  · exact h.blockAdvance (hp hb) n
  · rwa [State.blockAdvance, h.params, if_neg hb]

/-- An instruction that meets no fatal condition writes its registers, its parts and its bytes only (R28). -/
theorem exec_frame_of_noFault (hf : fatalCondition i s = none) (h : exec i s = .next t) :
    Frame s t (regsWritten i) (partsWritten s.params i) (bytesWritten s i) := by
  cases i with
  | cls => cases h; exact (Frame.self.setFb (.head _) _).setDirty (.tail _ (.head _)) _
  | ret =>
    simp only [exec, execRet] at h
    split at h
    next hsp => simp [fatalCondition, hsp] at hf
    split at h
    · cases h; exact (Frame.self.setSp (.head _) _).setPc (.tail _ (.head _)) _
    · cases h
  | call nnn =>
    simp only [exec, execCall] at h
    split at h
    next hsp => simp [fatalCondition, hsp] at hf
    split at h
    · cases h
      exact ((Frame.self.setStackEntry (.head _) _ _).setSp (.tail _ (.head _)) _).setPc
        (.tail _ (.tail _ (.head _))) _
    · cases h
  | jp nnn | jpV0 nnn => cases h; exact Frame.self.setPc (.head _) _
  | seImm x _ | sneImm x _ | seReg x _ | sneReg x _ => cases h; exact Frame.self.skipIf (.head _) _
  | skp x => cases h; exact Frame.skipOnKey (.head _) (fatalCondition_skp s x ▸ hf)
  | sknp x => cases h; exact Frame.skipOnKey (.head _) (fatalCondition_sknp s x ▸ hf)
  | ldVxK x =>
    simp only [exec, execLdVxK] at h
    split at h
    · cases h; exact Frame.self.setReg (.head _) _
    · cases h; exact Frame.self.setPc (.head _) _
  | ldImm x _ | addImm x _ | ldReg x _ | orReg x _ | andReg x _ | xorReg x _ | ldVxDT x =>
    cases h; exact Frame.self.setReg (.head _) _
  | addReg x _ | subReg x _ | shr x _ | subnReg x _ | shl x _ =>
    cases h; exact Frame.self.writeResultFlag (.head _) (.tail _ (.head _)) _ _
  | rnd x nn => cases h; exact (Frame.self.rndConsumed (.head _)).setReg (.head _) _
  | ldI _ | addI _ | ldF _ => cases h; exact Frame.self.setI (.head _) _
  | ldDTVx x => cases h; exact Frame.self.setDt (.head _) _
  | ldSTVx x => cases h; exact Frame.self.setSt (.head _) _
  | drw x y n =>
    cases h
    rw [withData_of_noDataFault (fatalCondition_drw s x y n ▸ hf)]
    exact ((Frame.self.setFb (.head _) _).setReg (.head _) _).setDirty (.tail _ (.head _)) _
  | ldB x =>
    cases h
    rw [withData_of_noDataFault (fatalCondition_ldB s x ▸ hf)]
    exact Frame.self.storeBytes fun a ha hb => ⟨ha, hb⟩
  | ldIVx x =>
    cases h
    rw [withData_of_noDataFault (fatalCondition_ldIVx s x ▸ hf)]
    exact Frame.blockAdvance_of_param
      (Frame.self.storeBytes fun a ha hb => ⟨ha, s.regsUpTo_length x ▸ hb⟩)
      (by simp +contextual [partsWritten]) _
  | ldVxI x =>
    cases h
    rw [withData_of_noDataFault (fatalCondition_ldVxI s x ▸ hf)]
    exact Frame.blockAdvance_of_param (Frame.self.setRegs fun q => reg_loadedRegs_notMem _)
      (by simp +contextual [partsWritten]) _

/-- Everything an instruction may write on any path: its row of the table, and `pc` with the fault registers
when it meets a fatal condition (R28, R101). -/
theorem exec_frame (h : exec i s = .next t) :
    Frame s t (regsWritten i) (partsWritten s.params i ++ faultParts (fatalCondition i s))
      (bytesWritten s i) := by
  cases hf : fatalCondition i s with
  | none => simpa [faultParts] using exec_frame_of_noFault hf h
  | some c =>
    obtain ⟨f, n⟩ := c
    cases (exec_of_fatalCondition hf).symm.trans h
    exact Frame.self.raise (by simp [faultParts]) (by simp [faultParts]) f n

/-- No instruction clears `dirty`: CLS and DRW set it, the others leave it (R18, R28). -/
theorem exec_keeps_dirty (h : exec i s = .next t) (hd : s.dirty = true) : t.dirty = true := by
  by_cases hc : i = .cls
  · subst hc; cases h; rfl
  by_cases hw : ∃ x y n, i = .drw x y n
  · -- a draw out of range faults and leaves `dirty`
    obtain ⟨x, y, n, rfl⟩ := hw
    cases h
    rw [State.withData]
    split
    · rfl
    · exact hd
  · have hp := (fb_dirty_notMem_partsWritten s.params hc fun x y n e => hw ⟨x, y, n, e⟩).2
    rw [(exec_frame h).dirty (notMem_append_faultParts _ hp), hd]

/-! ## The frame of a transaction of the outside world -/

/-- The parts a transaction of the outside world other than RESET writes (R28). -/
def partsOf : Transaction → List Part
  | .load _ => [.pc]
  | .tick => [.dt, .st]
  | .keys _ => [.key]
  | .frameAck => [.dirty]
  | .step | .reset => []

/-- The bytes a transaction of the outside world other than RESET writes (R28, R126). -/
def bytesOf : Transaction → Nat → Prop
  | .load rom => fun a => 0x200 ≤ a ∧ a < 0x200 + min rom.length 3584
  | _ => noBytes

theorem mem_partsOf {tr : Transaction} {q : Part} (h : q ∈ partsOf tr) :
    (q = .pc ∧ ∃ rom, tr = .load rom) ∨ ((q = .dt ∨ q = .st) ∧ tr = .tick) ∨
      (q = .key ∧ ∃ k, tr = .keys k) ∨ (q = .dirty ∧ tr = .frameAck) := by
  cases tr <;> simp_all [partsOf]

theorem not_bytesOf {tr : Transaction} (h : ∀ rom, tr ≠ .load rom) (a : Nat) : ¬ bytesOf tr a := by
  cases tr <;> simp_all [bytesOf, noBytes]

/-- LOAD writes `pc` and the bytes it copies, and nothing else (R126, R127). -/
theorem load_frame (s : State) (rom : List Byte) :
    Frame s (s.load rom) [] [.pc] (bytesOf (.load rom)) := by
  refine (Frame.self.storeBytes fun a ha hb => ⟨ha, ?_⟩).setPc (.head _) _
  rwa [List.length_take, Nat.min_comm] at hb

theorem transact_frame {tr : Transaction} (hs : tr ≠ .step) (hr : tr ≠ .reset)
    (h : transact tr s = .next t) : Frame s t [] (partsOf tr) (bytesOf tr) := by
  cases tr with
  | step => exact absurd rfl hs
  | reset => exact absurd rfl hr
  | load rom => cases h; exact load_frame s rom
  | tick => cases h; exact (Frame.self.setDt (.head _) _).setSt (.tail _ (.head _)) _
  | keys k => cases h; exact Frame.self.setKeys (.head _) k
  | frameAck => cases h; exact Frame.self.setDirty (.head _) false

/-- Settles O8: every clause is a field of the frame of the instruction or of the transaction. -/
theorem onlyTheListedWritersWriteEachPart : Obligations.OnlyTheListedWritersWriteEachPart := by
  refine ⟨fun i s t h => ?_, fun tr s t hs hr h => ?_⟩
  · have F := exec_frame h
    obtain ⟨hkey, hfault⟩ := key_fault_notMem_partsWritten s.params i
    exact ⟨F.regs,
      fun h1 h2 h3 h4 h5 hf =>
        (exec_frame_of_noFault hf h).pc (pc_notMem_partsWritten _ h1 h2 h3 h4 h5),
      fun h1 h2 h3 h4 => F.i (notMem_append_faultParts _ (i_notMem_partsWritten _ h1 h2 h3 h4)),
      fun h1 h2 => F.sp (notMem_append_faultParts _ (sp_notMem_partsWritten _ h1 h2)),
      fun h1 => F.stack (notMem_append_faultParts _ (stack_notMem_partsWritten _ h1)),
      fun h1 => F.dt (notMem_append_faultParts _ (dt_notMem_partsWritten _ h1)),
      fun h1 => F.st (notMem_append_faultParts _ (st_notMem_partsWritten _ h1)),
      fun h1 h2 a => F.memory a (not_bytesWritten h1 h2 a),
      fun h1 h2 =>
        have ⟨hfb, hdirty⟩ := fb_dirty_notMem_partsWritten s.params h1 h2
        ⟨F.fb (notMem_append_faultParts _ hfb), F.dirty (notMem_append_faultParts _ hdirty)⟩,
      exec_keeps_dirty h,
      F.key (notMem_append_faultParts _ hkey),
      fun hf => (exec_frame_of_noFault hf h).fault hfault⟩
  · have F := transact_frame hs hr h
    exact ⟨fun q => F.regs q List.not_mem_nil,
      F.i fun hm => by simpa using mem_partsOf hm,
      F.sp fun hm => by simpa using mem_partsOf hm,
      F.stack fun hm => by simpa using mem_partsOf hm,
      fun hl => ⟨F.pc fun hm => by simpa [hl] using mem_partsOf hm,
        fun a => F.memory a (not_bytesOf hl a)⟩,
      fun ht => ⟨F.dt fun hm => by simpa [ht] using mem_partsOf hm,
        F.st fun hm => by simpa [ht] using mem_partsOf hm⟩,
      F.fb fun hm => by simpa using mem_partsOf hm,
      fun ha => F.dirty fun hm => by simpa [ha] using mem_partsOf hm,
      fun hk => F.key fun hm => by simpa [hk] using mem_partsOf hm,
      F.fault fun hm => by simpa using mem_partsOf hm⟩

/-! ## RESET and LOAD (R26) -/

/-- What the table of reset values says alike of both its columns: every register, entry, timer, flag and cell
0 (R26). -/
def State.Cleared (u : State) : Prop :=
  (∀ q, u.reg q = 0) ∧ u.i = 0 ∧ u.sp = 0 ∧ (∀ k, u.stackEntry k = 0) ∧ u.dt = 0 ∧ u.st = 0 ∧
    u.dirty = false ∧ (∀ k, u.pressed k = false) ∧ (∀ x y, u.cell x y = false) ∧
    u.halted = false ∧ u.faultCause = 0 ∧ u.faultPc = 0 ∧ u.faultInfo = 0

theorem doReset_cleared (s : State) : s.doReset.Cleared :=
  ⟨fun _ => Vector.getElem_replicate _, rfl, rfl, fun _ => Vector.getElem_replicate _, rfl, rfl, rfl,
    fun _ => Vector.getElem_replicate _, cellOf_clear, rfl, rfl, rfl, rfl⟩

/-- A change of `pc` and of memory leaves a cleared state cleared. -/
theorem State.Cleared.of_frame {m : Nat → Prop} (hs : s.Cleared) (F : Frame s t [] [.pc] m) : t.Cleared := by
  obtain ⟨hv, hi, hsp, hstack, hdt, hst, hdirty, hkey, hfb, hh, hc, hp, hn⟩ := hs
  have hrep := F.fault (by decide)
  simp only [State.faultReport, Prod.mk.injEq, hh, hc, hp, hn] at hrep
  exact ⟨fun q => (F.regs q List.not_mem_nil).trans (hv q), (F.i (by decide)).trans hi,
    (F.sp (by decide)).trans hsp, fun k => (F.stack (by decide) k).trans (hstack k),
    (F.dt (by decide)).trans hdt, (F.st (by decide)).trans hst, (F.dirty (by decide)).trans hdirty,
    fun k => (F.key (by decide) k).trans (hkey k), fun x y => (F.fb (by decide) x y).trans (hfb x y), hrep⟩

/-- After RESET memory holds the font table and 0 elsewhere (R20, R26). -/
theorem readByte_doReset (s : State) (a : Nat) : s.doReset.readByte a = resetByte s.params a := rfl

/-- A byte of the ROM that LOAD copies reads back at its place from 0x200 (R126). -/
theorem readByte_load_of_lt (s : State) {rom : List Byte} {k : Nat} (hk : k < min rom.length 3584) :
    (s.load rom).readByte (0x200 + k) = rom.getD k 0 := by
  have h := s.readByte_storeBytes 0x200 (0x200 + k) (rom.take 3584)
  rw [List.length_take, if_pos (by omega), Nat.add_sub_cancel_left] at h
  refine h.trans ?_
  rw [List.getD_eq_getElem?_getD, List.getElem?_take, if_pos (by omega), List.getD_eq_getElem?_getD]

/-- From 0x200 upward a reset memory with a ROM loaded holds the ROM, and 0 past its end (R26). -/
theorem readByte_load_doReset (s : State) (rom : List Byte) {k : Nat} (hk : k < 3584) :
    (s.doReset.load rom).readByte (0x200 + k) = rom.getD k 0 := by
  by_cases hr : k < rom.length
  · exact readByte_load_of_lt _ (by omega)
  · have hm := (load_frame s.doReset rom).memory (0x200 + k) fun h => by simp only [bytesOf] at h; omega
    rw [hm, readByte_doReset, resetByte, if_neg (by omega), List.getD_eq_default _ _ (by omega)]

/-- Settles O1: RESET clears the block, and LOAD's frame carries that over to the second column. -/
theorem resetThenLoadGivesTheTableOfResetValues : Obligations.ResetThenLoadGivesTheTableOfResetValues := by
  refine ⟨rfl, fun s rom => ⟨s.doReset, s.doReset.load rom, rfl, rfl, rfl, rfl, readByte_doReset s,
    fun a ha => ?_, fun k => readByte_load_doReset s rom, ?_⟩⟩
  · exact (load_frame s.doReset rom).memory a fun h => by simp only [bytesOf] at h; omega
  · rintro u (rfl | rfl)
    · exact doReset_cleared s
    · exact (doReset_cleared s).of_frame (load_frame s.doReset rom)

end Sys2Proof.Machine
end

section
/-! SUPPORT. The fetch (20_memory.md R34): its word as a number, its advance without wrap, and the statement on
both. -/

namespace Sys2Proof.Machine

variable {s u : State} {i : Instr}

/-- The word of two bytes, as a number: the first byte is the high one (R34). -/
theorem wordOfBytes_toNat (high low : Byte) :
    (wordOfBytes high low).toNat = high.toNat * 256 + low.toNat := by
  rw [wordOfBytes, BitVec.toNat_append, ← Nat.shiftLeft_add_eq_or_of_lt low.isLt, Nat.shiftLeft_eq]

theorem fetchWord_toNat (s : State) (a : Nat) :
    (s.fetchWord a).toNat = (s.readByte a).toNat * 256 + (s.readByte (a + 1)).toNat :=
  wordOfBytes_toNat _ _

/-- A fetch that leads to an instruction had its two bytes in range and advanced past them (R34, R35). -/
theorem fetch_execute (h : fetch s = .execute i u) : s.pc.toNat < 4095 ∧ u = s.advance := by
  obtain ⟨-, hf⟩ | ⟨-, -, hf⟩ | ⟨-, -, -, hf⟩ | ⟨-, hpc, j, -, hf⟩ := fetch_cases (s := s)
  · cases hf.symm.trans h
  · cases hf.symm.trans h
  · cases hf.symm.trans h
  · cases hf.symm.trans h
    exact ⟨hpc, rfl⟩

/-- In the range of fetches the advance does not wrap (R34, R35). -/
theorem advance_pc_toNat (hpc : s.pc.toNat < 4095) : s.advance.pc.toNat = s.pc.toNat + 2 :=
  BitVec.toNat_add_of_lt (y := 2) (show s.pc.toNat + 2 < 65536 by omega)

/-- Settles O11: the word is its two bytes appended, and a fetch in range advances without wrap. -/
theorem fetchIsBigEndianAndAdvancesPc : Obligations.FetchIsBigEndianAndAdvancesPc := by
  refine fun s => ⟨fetchWord_toNat s, fun i u h => ?_⟩
  obtain ⟨hpc, rfl⟩ := fetch_execute h
  exact ⟨rfl, advance_pc_toNat hpc⟩

end Sys2Proof.Machine
end

section
/-! SUPPORT. The encoding (30_encoding.md): the fields of a word as numbers (R46), the words that decode to
nothing (R51 to R54), and what a STEP does in each of its outcomes (R56). -/

namespace Sys2Proof

variable {w : Word}

/-! ## The fields of a word (R46) -/

theorem fieldP_toNat (w : Word) : (fieldP w).toNat = w.toNat / 4096 := by
  rw [fieldP, BitVec.extractLsb'_toNat, Nat.shiftRight_eq_div_pow]
  omega

theorem fieldX_val (w : Word) : (fieldX w).val = w.toNat / 256 % 16 := by
  simp only [fieldX, BitVec.extractLsb'_toNat, Nat.shiftRight_eq_div_pow, Nat.reducePow]

theorem fieldY_val (w : Word) : (fieldY w).val = w.toNat / 16 % 16 := by
  simp only [fieldY, BitVec.extractLsb'_toNat, Nat.shiftRight_eq_div_pow, Nat.reducePow]

theorem fieldN_toNat (w : Word) : (fieldN w).toNat = w.toNat % 16 :=
  BitVec.extractLsb'_toNat ..

theorem fieldNN_toNat (w : Word) : (fieldNN w).toNat = w.toNat % 256 :=
  BitVec.extractLsb'_toNat ..

theorem fieldNNN_toNat (w : Word) : (fieldNNN w).toNat = w.toNat % 4096 :=
  BitVec.extractLsb'_toNat ..

/-- Settles O13: each field as a number, and the two overlaps by arithmetic. -/
theorem fieldsAreTheNibblesOfTheWord : Obligations.FieldsAreTheNibblesOfTheWord := by
  refine fun w => ⟨fieldP_toNat w, fieldX_val w, fieldY_val w, fieldN_toNat w, ?_, ?_⟩
  · rw [fieldNN_toNat, fieldY_val, fieldN_toNat]
    omega
  · rw [fieldNNN_toNat, fieldX_val, fieldNN_toNat]
    omega

/-! ## The unknown words, family by family (R51 to R54) -/

theorem decodeZero_unknown_iff (exact : Bool) : decodeZero exact w = .error (.unknown w) ↔
    (if exact then w.toNat = 0x00E0 || w.toNat = 0x00EE
      else (fieldN w).toNat = 0x0 || (fieldN w).toNat = 0xE) = false := by
  cases exact with
  | true =>
    simp only [decodeZero, if_true]
    split_ifs <;> simp_all [← BitVec.toNat_inj]
  | false =>
    simp only [decodeZero, Bool.false_eq_true, if_false]
    split <;> simp_all [← BitVec.toNat_inj]

theorem decodeFive_unknown_iff :
    decodeFive w = .error (.unknown w) ↔ decide ((fieldN w).toNat = 0) = false := by
  rw [decodeFive]
  split <;> simp_all [← BitVec.toNat_inj]

theorem decodeNine_unknown_iff :
    decodeNine w = .error (.unknown w) ↔ decide ((fieldN w).toNat = 0) = false := by
  rw [decodeNine]
  split <;> simp_all [← BitVec.toNat_inj]

theorem decodeAlu_unknown_iff : decodeAlu w = .error (.unknown w) ↔
    [0, 1, 2, 3, 4, 5, 6, 7, 0xE].contains (fieldN w).toNat = false := by
  rw [decodeAlu]
  split <;> simp_all [← BitVec.toNat_inj]

theorem decodeKey_unknown_iff : decodeKey w = .error (.unknown w) ↔
    [0x9E, 0xA1].contains (fieldNN w).toNat = false := by
  rw [decodeKey]
  split <;> simp_all [← BitVec.toNat_inj]

theorem decodeMisc_unknown_iff : decodeMisc w = .error (.unknown w) ↔
    [0x07, 0x0A, 0x15, 0x18, 0x1E, 0x29, 0x33, 0x55, 0x65].contains (fieldNN w).toNat = false := by
  rw [decodeMisc]
  split <;> simp_all [← BitVec.toNat_inj]

/-- The decoder's unknown words are those of R54's table: the families with no inner selection have none,
the others are the lemmas above. -/
theorem decode_unknown_iff (exact : Bool) (w : Word) :
    decode exact w = .error (.unknown w) ↔ wordDefined exact w = false := by
  rw [decode, wordDefined, ← fieldP_toNat, ← fieldN_toNat, ← fieldNN_toNat]
  split
  case h_1 h => rw [h]; exact decodeZero_unknown_iff exact
  case h_6 h => rw [h]; exact decodeFive_unknown_iff
  case h_9 h => rw [h]; exact decodeAlu_unknown_iff
  case h_10 h => rw [h]; exact decodeNine_unknown_iff
  case h_15 h => rw [h]; exact decodeKey_unknown_iff
  case h_16 =>
    -- the last branch excludes each of the fifteen lower nibbles
    have h : fieldP w = 0xF#4 := by simp only [imp_false] at *; bv_omega
    rw [h]; exact decodeMisc_unknown_iff
  -- the families without an inner selection: every word is an instruction
  all_goals rename_i h; rw [h]; simp

/-- A word with P = 0 is decoded by the 0 family alone (R50). -/
theorem decode_of_fieldP_zero (exact : Bool) (h : fieldP w = 0x0#4) :
    decode exact w = decodeZero exact w := by
  simp only [decode, h]

/-- Settles O18: what is defined is the 0 family's two patterns, what is unknown is R54's table. -/
theorem zeroFamilyIsClsRetOrUnknown : Obligations.ZeroFamilyIsClsRetOrUnknown := by
  refine ⟨fun w hp => ?_, by decide, by decide, by decide⟩
  have hP : fieldP w = 0x0#4 := BitVec.eq_of_toNat_eq ((fieldP_toNat w).trans hp)
  refine ⟨fun hn => ?_, fun hn => ?_, fun h0 hE => ?_, fun hcls hret => ?_⟩
  · have hN : fieldN w = 0x0#4 := BitVec.eq_of_toNat_eq ((fieldN_toNat w).trans hn)
    simp [decode_of_fieldP_zero _ hP, decodeZero, hN]
  · have hN : fieldN w = 0xE#4 := BitVec.eq_of_toNat_eq ((fieldN_toNat w).trans hn)
    simp [decode_of_fieldP_zero _ hP, decodeZero, hN]
  · exact (decode_unknown_iff false w).2 (by simp [wordDefined, hp, h0, hE])
  · exact (decode_unknown_iff true w).2 (by simp [wordDefined, hp, hcls, hret])

/-- The word of two bytes in the spec's own form, a shift and an OR (R34). -/
theorem wordOfBytes_eq_shift_or (high low : Byte) :
    wordOfBytes high low = high.setWidth 16 <<< 8 ||| low.setWidth 16 := by
  rw [wordOfBytes, BitVec.append_def, BitVec.shiftLeftZeroExtend_eq, BitVec.setWidth'_eq]

end Sys2Proof

namespace Sys2Proof.Machine

variable {s : State}

/-! ## The outcomes of a STEP (R56) -/

theorem engineStep_halted (h : s.halted = true) : engineStep s = .next s := by
  rw [engineStep, fetch, if_pos h]

theorem engineStep_fetchOutOfRange (hh : s.halted = false) (hp : s.pc.toNat + 1 > 4095) :
    engineStep s = .next (s.raiseAt s.pc .fetchOutOfRange s.pc) := by
  simp [engineStep, fetch, hh, hp]

theorem engineStep_execute (hc : s.CanFetch) {i : Instr}
    (hd : decode s.params.zeroFamilyExact (s.fetchWord s.pc.toNat) = .ok i) :
    engineStep s = exec i s.advance := by
  obtain ⟨hh : s.halted = false, hp⟩ := hc
  simp [engineStep, fetch, hh, Nat.not_lt.2 hp, hd]

theorem engineStep_ignoreUnknown (hc : s.CanFetch) {e : DecodeError}
    (hd : decode s.params.zeroFamilyExact (s.fetchWord s.pc.toNat) = .error e) :
    engineStep s = .next (s.ignoreUnknown (s.fetchWord s.pc.toNat)) := by
  obtain ⟨hh : s.halted = false, hp⟩ := hc
  simp [engineStep, fetch, hh, Nat.not_lt.2 hp, hd]

/-- Settles O22: the four outcomes of a STEP, the last two told apart by the decoder. -/
theorem stepFollowsTheCycleInOrder : Obligations.StepFollowsTheCycleInOrder := by
  refine fun s => ⟨engineStep_halted, engineStep_fetchOutOfRange, fun hh hp w hw => ?_⟩
  obtain rfl : w = s.fetchWord s.pc.toNat := hw.trans (wordOfBytes_eq_shift_or _ _).symm
  refine ⟨fun i hd => engineStep_execute ⟨hh, hp⟩ hd, fun hd => ?_⟩
  cases he : decode s.params.zeroFamilyExact (s.fetchWord s.pc.toNat) with
  | ok i => exact absurd he (hd i)
  | error e => exact engineStep_ignoreUnknown ⟨hh, hp⟩ he

/-- Ignoring an unknown word writes `pc` and the list of events only (R54). -/
theorem ignoreUnknown_frame (s : State) (w : Word) :
    Frame s (s.ignoreUnknown w) [] [.pc, .diag] noBytes :=
  (Frame.self.setPc (.head _) _).emitDiag (.tail _ (.head _)) w

/-- Settles O19: the decoder against R54's table, and the STEP that ignores the word. -/
theorem unknownWordIsATwoByteNoOpWithAReport : Obligations.UnknownWordIsATwoByteNoOpWithAReport := by
  refine ⟨decode_unknown_iff, fun s hc hw => ?_⟩
  have hd := (decode_unknown_iff s.params.zeroFamilyExact (s.fetchWord s.pc.toNat)).2 hw
  exact ⟨_, engineStep_ignoreUnknown hc hd, rfl, rfl, ignoreUnknown_frame s _⟩

end Sys2Proof.Machine
end

section
/-! SUPPORT. Display clear and flow (40_display_flow.md): how an instruction that meets a fatal condition ends,
the two completing paths of RET and CALL, and the statements on CLS, RET, JP and CALL. -/

namespace Sys2Proof.Machine

variable {s : State} {i : Instr} {k : Fin 16}

/-- What a fatal condition leaves: its report at the instruction's own address, `pc` there, and nothing else
changed (R101, R102). -/
theorem exec_faults_precisely {f : FaultKind} {n : Word} (h : fatalCondition i s = some (f, n)) :
    ∃ t, exec i s = .next t ∧ t.faultReport = (true, causeCode f, s.pc - 2, n) ∧
      t.pc = s.pc - 2 ∧ Frame s t [] [.pc, .fault] noBytes :=
  ⟨s.raise f n, exec_of_fatalCondition h, s.faultReport_raise f n, rfl,
    Frame.self.raise (.head _) (.tail _ (.head _)) f n⟩

theorem fatalCondition_ret (hsp : s.sp = 0) : fatalCondition .ret s = some (.stackUnderflow, 0) := by
  rw [fatalCondition, if_pos hsp]

theorem fatalCondition_call (nnn : BitVec 12) (hsp : s.sp = 16) :
    fatalCondition (.call nnn) s = some (.stackOverflow, 16) := by
  rw [fatalCondition, if_pos hsp]

/-- RET with `k + 1` addresses on the stack goes on at entry `k` (R61). -/
theorem exec_ret_of_nonempty (hk : s.sp.toNat = k.val + 1) :
    exec .ret s = .next ((s.setSp (s.sp - 1)).setPc (s.stackEntry k)) := by
  have hne : s.sp ≠ 0 := by bv_omega
  have hentry : s.sp.toNat - 1 = k.val := by omega
  rw [exec, execRet, if_neg hne]
  simp [hentry]

/-- CALL with `k` addresses on the stack, fewer than 16, stores `npc` at entry `k` (R63). -/
theorem exec_call_of_notFull (nnn : BitVec 12) (hk : s.sp.toNat = k.val) :
    exec (.call nnn) s =
      .next (((s.setStackEntry k s.pc).setSp (s.sp + 1)).setPc (addrOf nnn)) := by
  have hne : s.sp ≠ 16 := by bv_omega
  rw [exec, execCall, if_neg hne]
  simp [hk]

/-- An address immediate is zero-extended: the same number in 16 bits (R48). -/
theorem addrOf_toNat (nnn : BitVec 12) : (addrOf nnn).toNat = nnn.toNat :=
  BitVec.toNat_setWidth_of_le (by decide)

/-- Settles O25: at `sp` = 0 the fatal condition's outcome, else the pop of the entry below `sp`. -/
theorem retPopsOrUnderflows : Obligations.RetPopsOrUnderflows := by
  refine fun s => ⟨fun hsp => exec_faults_precisely (fatalCondition_ret hsp), fun k hk => ?_⟩
  have hpop : (s.sp - 1).toNat = k.val := by bv_omega
  exact ⟨_, exec_ret_of_nonempty hk, hpop, rfl,
    (Frame.self.setSp (.tail _ (.head _)) _).setPc (.head _) _⟩

/-- Settles O27: at `sp` = 16 the fatal condition's outcome, else the push at the entry `sp` counts to. -/
theorem callPushesOrOverflows : Obligations.CallPushesOrOverflows := by
  refine fun s nnn =>
    ⟨fun hsp => exec_faults_precisely (fatalCondition_call nnn hsp), fun k hk => ?_⟩
  have hpush : (s.sp + 1).toNat = k.val + 1 := by bv_omega
  have hstack (j : Fin 16) := s.stackEntry_setStackEntry k j s.pc
  exact ⟨_, exec_call_of_notFull nnn hk, hpush, (hstack k).trans (if_pos rfl),
    fun j hj => (hstack j).trans (if_neg hj), addrOf_toNat nnn,
    ((Frame.self.setStackEntry (.tail _ (.tail _ (.head _))) _ _).setSp (.tail _ (.head _)) _).setPc
      (.head _) _⟩

/-- Settles O24: the display CLS writes has no cell set, and its frame is that of its row of R28. -/
theorem clsClearsTheDisplay : Obligations.ClsClearsTheDisplay :=
  fun _ => ⟨_, rfl, cellOf_clear, rfl, exec_frame_of_noFault (i := .cls) rfl rfl⟩

/-- Settles O26: NNN zero-extended is the same number, and the frame of JP is that of its row of R28. -/
theorem jpSetsPc : Obligations.JpSetsPc :=
  fun _ nnn => ⟨_, rfl, addrOf_toNat nnn, exec_frame_of_noFault (i := .jp nnn) rfl rfl⟩

end Sys2Proof.Machine
end

section
/-! SUPPORT. The conditional skips (41_skip.md): where a skip on an equality, or on a difference, leaves `pc`,
and the statements on the four skips. -/

namespace Sys2Proof.Machine

/-- `pc` is already past the instruction; it moves by a further 2 when the condition holds (R64 to R67). -/
@[simp] theorem State.skipIf_pc (s : State) (c : Bool) :
    (s.skipIf c).pc = if c then s.pc + 2 else s.pc := by
  rw [State.skipIf_eq, State.setPc_pc]

/-- A skip on equality compares the two bytes as unsigned numbers (R64, R66). -/
theorem State.skipIf_decide_eq_pc (s : State) (a b : Byte) :
    (s.skipIf (decide (a = b))).pc = if a.toNat = b.toNat then s.pc + 2 else s.pc := by
  simp only [State.skipIf_pc, decide_eq_true_eq, BitVec.toNat_inj]

/-- A skip on difference is the other way round: equal bytes do not skip (R65, R67). -/
theorem State.skipIf_decide_ne_pc (s : State) (a b : Byte) :
    (s.skipIf (decide (a ≠ b))).pc = if a.toNat = b.toNat then s.pc else s.pc + 2 := by
  simp only [State.skipIf_pc, decide_eq_true_eq, BitVec.toNat_inj, ne_eq, ite_not]

/-- Settles O30: the two skips on V[X] and NN, each with the frame of a skip. -/
theorem immediateSkips : Obligations.ImmediateSkips :=
  fun s x nn => ⟨_, _, rfl, rfl, s.skipIf_decide_eq_pc (s.reg x) nn, s.skipIf_decide_ne_pc (s.reg x) nn,
    Frame.self.skipIf (.head _) _, Frame.self.skipIf (.head _) _⟩

/-- Settles O31: the two skips on V[X] and V[Y], each with the frame of a skip. -/
theorem registerSkips : Obligations.RegisterSkips :=
  fun s x y => ⟨_, _, rfl, rfl, s.skipIf_decide_eq_pc (s.reg x) (s.reg y),
    s.skipIf_decide_ne_pc (s.reg x) (s.reg y), Frame.self.skipIf (.head _) _,
    Frame.self.skipIf (.head _) _⟩

end Sys2Proof.Machine
end

section
/-! SUPPORT. The immediate load and add (42_immediate.md): the sum of two bytes, formed in 16 bits, as a number,
and the statement on LD Vx,NN and ADD Vx,NN. -/

namespace Sys2Proof.Machine

/-- A register reads back what was just written to it. -/
theorem State.reg_setReg_self (s : State) (r : Reg) (b : Byte) : (s.setReg r b).reg r = b := by
  rw [State.reg_setReg, if_pos rfl]

theorem widen_toNat (b : Byte) : (widen b).toNat = b.toNat :=
  BitVec.toNat_setWidth_of_le (by decide)

/-- Sixteen bits hold the exact sum of two bytes (R69, R75). -/
theorem widen_add_widen_toNat (a b : Byte) : (widen a + widen b).toNat = a.toNat + b.toNat := by
  have hfits : (widen a).toNat + (widen b).toNat < 2 ^ 16 := by
    rw [widen_toNat, widen_toNat]; omega
  rw [BitVec.toNat_add_of_lt hfits, widen_toNat, widen_toNat]

/-- The byte kept of the sum is the sum modulo 256 (R69, R75). -/
theorem sumByte_toNat (a b : Byte) : (sumByte a b).toNat = (a.toNat + b.toNat) % 256 := by
  rw [sumByte, BitVec.toNat_setWidth, widen_add_widen_toNat]

/-- Settles O32: each writes V[X] alone, the load with NN and the add with the low byte of the sum. -/
theorem immediateLoadAndAdd : Obligations.ImmediateLoadAndAdd := by
  refine fun s x nn => ⟨_, _, rfl, rfl, s.reg_setReg_self x nn, ?_,
    Frame.self.setReg (.head _) _, Frame.self.setReg (.head _) _⟩
  rw [State.reg_setReg_self, sumByte_toNat]

end Sys2Proof.Machine
end

section
/-! SUPPORT. The register ALU (43_alu.md): the results and the flags as numbers (R75 to R80), what V[X] and VF
read as after a result and a flag are written (R70), and the statements on the 8XYN instructions. -/

namespace Sys2Proof.Machine

/-! ## The results and the flags as numbers (R75 to R80) -/

theorem flagByte_decide_toNat (c : Prop) [Decidable c] :
    (flagByte (decide c)).toNat = if c then 1 else 0 := by
  by_cases hc : c <;> simp [flagByte, hc]

theorem carryFlag_toNat (a b : Byte) :
    (carryFlag a b).toNat = if a.toNat + b.toNat > 255 then 1 else 0 := by
  rw [carryFlag, flagByte_decide_toNat, widen_add_widen_toNat]

theorem notBorrowFlag_toNat (a b : Byte) :
    (notBorrowFlag a b).toNat = if a.toNat ≥ b.toNat then 1 else 0 :=
  flagByte_decide_toNat _

/-- NOT borrow as an integer, for the statements that form the difference over the integers. -/
theorem notBorrowFlag_toInt (a b : Byte) :
    ((notBorrowFlag a b).toNat : Int) = if a.toNat ≥ b.toNat then 1 else 0 := by
  rw [notBorrowFlag_toNat, Nat.cast_ite, Nat.cast_one, Nat.cast_zero]

theorem differenceByte_toNat (a b : Byte) :
    (differenceByte a b).toNat = (a.toNat + 256 - b.toNat) % 256 :=
  BitVec.toNat_ofNat ..

/-- Adding 256 before the subtraction keeps it in the naturals and does not change it modulo 256 (R76). -/
theorem differenceByte_toInt (a b : Byte) :
    ((differenceByte a b).toNat : Int) = ((a.toNat : Int) - b.toNat) % 256 := by
  have hb : b.toNat < 256 := b.isLt
  rw [differenceByte_toNat]
  omega

theorem shiftRightOne_toNat (a : Byte) : (a >>> 1).toNat = a.toNat / 2 := by
  rw [BitVec.toNat_ushiftRight, Nat.shiftRight_one]

theorem shiftLeftOne_toNat (a : Byte) : (a <<< 1).toNat = a.toNat * 2 % 256 := by
  rw [BitVec.toNat_shiftLeft, Nat.shiftLeft_eq, pow_one]

theorem lowBitFlag_toNat (a : Byte) : (lowBitFlag a).toNat = a.toNat % 2 := by
  rw [lowBitFlag, BitVec.toNat_and]
  exact Nat.and_one_is_mod _

/-- A byte shifted right by seven is its bit 7 already, so the mask of R79 takes nothing away. -/
theorem highBitFlag_toNat (a : Byte) : (highBitFlag a).toNat = a.toNat / 128 := by
  have ha : a.toNat < 256 := a.isLt
  calc (highBitFlag a).toNat
    _ = (a.toNat >>> 7) % 2 := by
        rw [highBitFlag, BitVec.toNat_and, BitVec.toNat_ushiftRight]
        exact Nat.and_one_is_mod _
    _ = a.toNat / 128 % 2 := by rw [Nat.shiftRight_eq_div_pow]
    _ = a.toNat / 128 := by omega

theorem State.shiftOperand_eq (s : State) (x y : Reg) :
    s.shiftOperand x y = if s.params.shiftSource = .vy then s.reg y else s.reg x := by
  rw [State.shiftOperand]
  cases s.params.shiftSource <;> rfl

/-! ## The order of the result write and the flag write (R70) -/

/-- Where X is not 15 both writes are seen; where it is 15, VF keeps the later of the two.  `num` reads a byte
as a number, natural or integer, and takes the result to `rn` and the flag to `fn`. -/
theorem State.num_reg_writeResultFlag (s : State) (x : Reg) {α : Type} (num : Byte → α) {r f : Byte}
    {rn fn : α} (hr : num r = rn) (hf : num f = fn) :
    (x ≠ VF → num ((s.writeResultFlag x r f).reg x) = rn ∧
      num ((s.writeResultFlag x r f).reg VF) = fn) ∧
    (x = VF → num ((s.writeResultFlag x r f).reg VF) = if s.params.vfLast then fn else rn) := by
  subst hr hf
  refine ⟨fun hx => ?_, fun hx => ?_⟩
  · simp [s.reg_writeResultFlag, hx]
  · simp [s.reg_writeResultFlag, hx, apply_ite num]

/-- SUB and SUBN are one write with the operands exchanged: the difference `a - b` modulo 256, and its NOT
borrow in VF (R76, R78). -/
theorem State.reg_writeDifference (s : State) (x : Reg) (a b : Byte) :
    ∀ diff flag : Int, diff = ((a.toNat : Int) - b.toNat) % 256 →
      flag = (if a.toNat ≥ b.toNat then 1 else 0) →
      (x ≠ VF →
        (((s.writeResultFlag x (differenceByte a b) (notBorrowFlag a b)).reg x).toNat : Int) = diff ∧
        (((s.writeResultFlag x (differenceByte a b) (notBorrowFlag a b)).reg VF).toNat : Int) = flag) ∧
      (x = VF →
        (((s.writeResultFlag x (differenceByte a b) (notBorrowFlag a b)).reg VF).toNat : Int) =
          if s.params.vfLast then flag else diff) := by
  rintro _ _ rfl rfl
  exact s.num_reg_writeResultFlag x (fun c => (c.toNat : Int)) (differenceByte_toInt a b)
    (notBorrowFlag_toInt a b)

/-- Every instruction that writes a result and a flag writes V[X] and VF and nothing else (R28). -/
theorem State.writeResultFlag_frame (s : State) (x : Reg) (r f : Byte) :
    Frame s (s.writeResultFlag x r f) [x, VF] [] noBytes :=
  Frame.self.writeResultFlag (.head _) (.tail _ (.head _)) r f

/-! ## The statements -/

/-- Settles O33: each writes V[X] alone, and the three operators act on each bit by itself. -/
theorem copyAndLogicWriteOnlyVx : Obligations.CopyAndLogicWriteOnlyVx := by
  refine fun s x y => ⟨_, _, _, _, rfl, rfl, rfl, rfl, fun k _ => ?_, Frame.self.setReg (.head _) _,
    Frame.self.setReg (.head _) _, Frame.self.setReg (.head _) _, Frame.self.setReg (.head _) _⟩
  simp only [State.reg_setReg_self, BitVec.getLsbD_or, BitVec.getLsbD_and, BitVec.getLsbD_xor, and_self]

/-- Settles O34: the sum and the carry as numbers, written in the order of R70. -/
theorem addWithCarry : Obligations.AddWithCarry := by
  refine fun s x y => ⟨_, rfl, ?_, s.writeResultFlag_frame x _ _⟩
  rintro _ _ rfl rfl
  exact s.num_reg_writeResultFlag x BitVec.toNat (sumByte_toNat _ _) (carryFlag_toNat _ _)

/-- Settles O35: the difference written is V[X] − V[Y]. -/
theorem subWithNotBorrow : Obligations.SubWithNotBorrow :=
  fun s x y => ⟨_, rfl, s.reg_writeDifference x (s.reg x) (s.reg y), s.writeResultFlag_frame x _ _⟩

/-- Settles O36: the difference written is V[Y] − V[X]. -/
theorem subnWithNotBorrow : Obligations.SubnWithNotBorrow :=
  fun s x y => ⟨_, rfl, s.reg_writeDifference x (s.reg y) (s.reg x), s.writeResultFlag_frame x _ _⟩

/-- Settles O37: the shifted source and the bit shifted out as numbers, written in the order of R70. -/
theorem shiftsByOne : Obligations.ShiftsByOne := by
  refine fun s x y => ⟨_, _, rfl, rfl, ?_, s.writeResultFlag_frame x _ _, s.writeResultFlag_frame x _ _⟩
  intro a ha
  rw [← s.shiftOperand_eq x y] at ha
  subst ha
  obtain ⟨hright, hrightVf⟩ := s.num_reg_writeResultFlag x BitVec.toNat
    (shiftRightOne_toNat (s.shiftOperand x y)) (lowBitFlag_toNat _)
  obtain ⟨hleft, hleftVf⟩ := s.num_reg_writeResultFlag x BitVec.toNat
    (shiftLeftOne_toNat (s.shiftOperand x y)) (highBitFlag_toNat _)
  exact ⟨fun hx => ⟨(hright hx).1, (hright hx).2, hleft hx⟩, fun hx => ⟨hrightVf hx, hleftVf hx⟩⟩

end Sys2Proof.Machine
end

section
/-! SUPPORT. The index register and the indexed jump (44_index_random.md): the sums of ADD I,Vx and of JP V0,NNN
as numbers, and the statements on LD I,NNN, ADD I,Vx and JP V0,NNN. -/

namespace Sys2Proof.Machine

/-- A byte added to a 16-bit word wraps modulo 65536 (R85). -/
theorem add_widen_toNat (w : Word) (b : Byte) : (w + widen b).toNat = (w.toNat + b.toNat) % 65536 := by
  rw [BitVec.toNat_add, widen_toNat]

/-- An address immediate and a byte: together at most 0xFFF + 0xFF (R84). -/
theorem addr_add_byte_le (nnn : BitVec 12) (b : Byte) : nnn.toNat + b.toNat ≤ 0x10FE := by
  have hnnn : nnn.toNat < 4096 := nnn.isLt
  have hb : b.toNat < 256 := b.isLt
  omega

/-- Sixteen bits hold the exact sum of an address immediate and a byte: it neither wraps nor is masked (R84). -/
theorem addrOf_add_widen_toNat (nnn : BitVec 12) (b : Byte) :
    (addrOf nnn + widen b).toNat = nnn.toNat + b.toNat := by
  have hle := addr_add_byte_le nnn b
  rw [add_widen_toNat, addrOf_toNat, Nat.mod_eq_of_lt (by omega)]

/-- Settles O40: `pc` becomes the exact sum, which is at most 0x10FE. -/
theorem jpV0AddsV0 : Obligations.JpV0AddsV0 := by
  intro s nnn
  have hsum := addrOf_add_widen_toNat nnn (s.reg 0)
  exact ⟨_, rfl, hsum, hsum.trans_le (addr_add_byte_le nnn _), Frame.self.setPc (.head _) _⟩

/-- Settles O39: NNN zero-extended is the same number, the sum wraps in I, and each writes I alone. -/
theorem indexLoadAndAdd : Obligations.IndexLoadAndAdd :=
  fun s nnn x => ⟨_, _, rfl, rfl, addrOf_toNat nnn, add_widen_toNat s.i (s.reg x),
    Frame.self.setI (.head _) _, Frame.self.setI (.head _) _⟩

end Sys2Proof.Machine
end

section
/-! SUPPORT. Sprite draw (45_draw.md): which cells the pixel loop of R87 inverts and when it records a collision,
by cell, row and sprite, and the statements on DRW inside memory and past its end. -/

namespace Sys2Proof.Machine

/-! ## Canvases and the cells inverted between them (R87) -/

/-- From `cv` to `cv'` exactly the cells of `P` were inverted, and the collision flag was raised if one of them
held 1 (R87). -/
structure Inverts (cv cv' : Canvas) (P : Fin 64 → Fin 32 → Prop) : Prop where
  inside : ∀ x y, P x y → cellOf cv'.fb x y = !cellOf cv.fb x y
  outside : ∀ x y, ¬ P x y → cellOf cv'.fb x y = cellOf cv.fb x y
  hit : cv'.hit = true ↔ cv.hit = true ∨ ∃ x y, P x y ∧ cellOf cv.fb x y = true

variable {cv cv' cv'' : Canvas} {P Q R : Fin 64 → Fin 32 → Prop}

theorem Inverts.refl (hP : ∀ x y, ¬ P x y) : Inverts cv cv P where
  inside x y h := absurd h (hP x y)
  outside _ _ _ := rfl
  hit := by simp [hP]

/-- Two draws on disjoint sets of cells make one: the second sees its cells as they were before the first. -/
theorem Inverts.trans (hP : Inverts cv cv' P) (hQ : Inverts cv' cv'' Q) (hdisj : ∀ x y, P x y → ¬ Q x y)
    (hR : ∀ x y, R x y ↔ P x y ∨ Q x y) : Inverts cv cv'' R where
  inside x y h := by
    obtain h | h := (hR x y).mp h
    · rw [hQ.outside x y (hdisj x y h), hP.inside x y h]
    · rw [hQ.inside x y h, hP.outside x y fun h' => hdisj x y h' h]
  outside x y h := by
    obtain ⟨hnP, hnQ⟩ := not_or.mp fun h' => h ((hR x y).mpr h')
    rw [hQ.outside x y hnQ, hP.outside x y hnP]
  hit := by
    have hseen x y : Q x y ∧ cellOf cv'.fb x y = true ↔ Q x y ∧ cellOf cv.fb x y = true :=
      and_congr_right fun h => by rw [hP.outside x y fun h' => hdisj x y h' h]
    simp only [hQ.hit, hP.hit, hseen, hR, or_and_right, exists_or, or_assoc]

/-! ## One bit, one row, all rows -/

/-- Eight successive columns, taken modulo 64, are eight different columns. -/
theorem column_inj (v : Byte) {c d : Nat} (hc : c < 8) (hd : d < 8) (h : column v c = column v d) :
    c = d := by
  have hval := congrArg Fin.val h
  simp only [column] at hval
  omega

/-- At most 32 successive rows, taken modulo 32, are different rows. -/
theorem row_inj (v : Byte) {q r : Nat} (hq : q < 32) (hr : r < 32) (h : row v q = row v r) : q = r := by
  have hval := congrArg Fin.val h
  simp only [row] at hval
  omega

/-- The cells that the first `k` bits of the sprite byte `b` land on in row `y` (R87). -/
def RowCells (vx : Byte) (y : Fin 32) (b : Byte) (k : Nat) (x' : Fin 64) (y' : Fin 32) : Prop :=
  y' = y ∧ ∃ c < k, x' = column vx c ∧ spriteBit b c = true

/-- The cells that the sprite rows `bs` land on, the first of them being row `r` of the sprite (R87). -/
def RowsCells (vx vy : Byte) (r : Nat) (bs : List Byte) (x' : Fin 64) (y' : Fin 32) : Prop :=
  ∃ (j : Nat) (b : Byte), bs[j]? = some b ∧ RowCells vx (row vy (r + j)) b 8 x' y'

theorem plot_inverts (cv : Canvas) (x : Fin 64) (y : Fin 32) (bit : Bool) :
    Inverts cv (plot cv x y bit) fun x' y' => y' = y ∧ x' = x ∧ bit = true := by
  cases bit with
  | false => exact Inverts.refl (by simp)
  | true =>
    constructor
    case inside => rintro x' y' ⟨rfl, rfl, -⟩; simp [plot, cellOf_flipCell]
    case outside =>
      intro x' y' h
      rw [plot, if_pos rfl, cellOf_flipCell, if_neg fun e => h ⟨e.2, e.1, rfl⟩]
    case hit => simp [plot]

/-- Bit by bit: no two bits of a row land in the same column. -/
theorem plotRow_firstBits_inverts (cv : Canvas) (vx : Byte) (y : Fin 32) (b : Byte) {k : Nat} (hk : k ≤ 8) :
    Inverts cv ((List.range k).foldl (fun cv c => plot cv (column vx c) y (spriteBit b c)) cv)
      (RowCells vx y b k) := by
  induction k with
  | zero => exact Inverts.refl (by simp [RowCells])
  | succ k ih =>
    rw [List.range_succ, List.foldl_append]
    refine (ih (by omega)).trans (plot_inverts _ (column vx k) y (spriteBit b k)) ?_ ?_
    · rintro x y' ⟨-, c, hc, rfl, -⟩ ⟨-, hcol, -⟩
      have hck := column_inj vx (by omega) (by omega) hcol
      omega
    · intro x y'
      simp only [RowCells, Nat.exists_lt_succ_right, and_or_left]

theorem plotRow_inverts (cv : Canvas) (vx : Byte) (y : Fin 32) (b : Byte) :
    Inverts cv (plotRow cv vx y b) (RowCells vx y b 8) :=
  plotRow_firstBits_inverts cv vx y b (le_refl 8)

theorem rowsCells_cons (vx vy : Byte) (r : Nat) (b : Byte) (bs : List Byte) (x : Fin 64) (y : Fin 32) :
    RowsCells vx vy r (b :: bs) x y ↔
      RowCells vx (row vy r) b 8 x y ∨ RowsCells vx vy (r + 1) bs x y := by
  constructor
  · rintro ⟨_ | j, b', hb, hcell⟩
    · cases hb; exact .inl hcell
    · exact .inr ⟨j, b', hb, by rwa [Nat.add_assoc, Nat.add_comm 1 j]⟩
  · rintro (hcell | ⟨j, b', hb, hcell⟩)
    · exact ⟨0, b, rfl, hcell⟩
    · exact ⟨j + 1, b', hb, by rwa [Nat.add_assoc, Nat.add_comm 1 j] at hcell⟩

/-- Row by row: a sprite of at most 32 rows does not wrap onto itself, so no row meets one drawn before it. -/
theorem plotRows_inverts (vx vy : Byte) (bs : List Byte) :
    ∀ (cv : Canvas) (r : Nat), r + bs.length ≤ 32 →
      Inverts cv (plotRows cv vx vy r bs) (RowsCells vx vy r bs) := by
  induction bs with
  | nil => exact fun cv r _ => Inverts.refl (by simp [RowsCells])
  | cons b bs ih =>
    intro cv r hlen
    rw [List.length_cons] at hlen
    refine (plotRow_inverts cv vx (row vy r) b).trans (ih _ (r + 1) (by omega)) ?_
      (rowsCells_cons vx vy r b bs)
    rintro x y ⟨rfl, -⟩ ⟨j, b', hb, hrow, -⟩
    obtain ⟨hj, -⟩ := List.getElem?_eq_some_iff.mp hb
    have hrj := row_inj vy (by omega) (by omega) hrow
    omega

/-! ## The sprite in memory -/

variable (s : State) (vx vy : Reg)

theorem spriteBit_iff (b : Byte) (c : Nat) : spriteBit b c = true ↔ b.toNat / 2 ^ (7 - c) % 2 = 1 := by
  rw [spriteBit, BitVec.getLsbD, Nat.testBit_eq_decide_div_mod_eq, decide_eq_true_iff]

theorem State.spriteBytes_getElem? (n j : Nat) (b : Byte) :
    (s.spriteBytes n)[j]? = some b ↔ j < n ∧ s.readByte (s.i.toNat + j) = b := by
  simp [State.spriteBytes, State.dataBase, List.getElem?_eq_some_iff]

/-- The cells of the pixel loop are the cells of R87's description. -/
theorem State.rowsCells_spriteBytes (n : Nat) (x : Fin 64) (y : Fin 32) :
    RowsCells (s.reg vx) (s.reg vy) 0 (s.spriteBytes n) x y ↔ s.SpriteCovers vx vy n x y := by
  simp only [RowsCells, RowCells, State.SpriteCovers, s.spriteBytes_getElem?, spriteBit_iff, Fin.ext_iff,
    column, row, Nat.zero_add]
  constructor
  · rintro ⟨r, b, ⟨hr, rfl⟩, hy, c, hc, hx, hbit⟩
    exact ⟨r, hr, c, hc, hx, hy, hbit⟩
  · rintro ⟨r, hr, c, hc, hx, hy, hbit⟩
    exact ⟨r, _, ⟨hr, rfl⟩, hy, c, hc, hx, hbit⟩

/-- The whole pixel loop inverts exactly the sprite's cells (R87). -/
theorem State.drawn_inverts {n : Nat} (hn : n ≤ 32) :
    Inverts ⟨s.fb, false⟩ (s.drawn vx vy n) (s.SpriteCovers vx vy n) := by
  have hcells : RowsCells (s.reg vx) (s.reg vy) 0 (s.spriteBytes n) = s.SpriteCovers vx vy n :=
    funext₂ fun x y => propext (s.rowsCells_spriteBytes vx vy n x y)
  rw [← hcells]
  exact plotRows_inverts _ _ _ _ 0 (by simpa using hn)

/-! ## The instruction -/

/-- DRW with its sprite bytes in memory writes the drawn display, the collision to VF and `dirty` (R87). -/
theorem exec_drw_of_inRange (n : BitVec 4) (h : n.toNat = 0 ∨ s.i.toNat + n.toNat - 1 ≤ 4095) :
    exec (.drw vx vy n) s = .next (((s.setFb (s.drawn vx vy n.toNat).fb).setReg VF
      (flagByte (s.drawn vx vy n.toNat).hit)).setDirty true) :=
  congrArg _ (s.withData_inRange (by simpa [State.dataInRange, State.dataBase] using h))

/-- A sprite of no rows leaves the display alone: only VF and `dirty` are written (R89). -/
theorem exec_drw_of_noRows (n : BitVec 4) (h : n.toNat = 0) :
    exec (.drw vx vy n) s = .next ((s.setReg VF 0).setDirty true) := by
  rw [exec_drw_of_inRange s vx vy n (.inl h), h]
  rfl

theorem fatalCondition_drw_of_pastMemory (n : BitVec 4) (hn : n.toNat ≥ 1)
    (hpast : s.i.toNat + n.toNat - 1 > 4095) : fatalCondition (.drw vx vy n) s =
      some (.memIndexOutOfRange, BitVec.ofNat 16 (max s.i.toNat 4096)) :=
  if_pos ⟨hn, hpast⟩

/-- Settles O43: the pixel loop inverts exactly the sprite's cells, its collision flag is what VF takes, and the
frame is that of the three writes. -/
theorem drwInvertsTheSpriteAndReportsCollision : Obligations.DrwInvertsTheSpriteAndReportsCollision := by
  intro s vx vy n hrange
  have hn : n.toNat < 16 := n.isLt
  obtain ⟨hin, hout, hhit⟩ := s.drawn_inverts vx vy (n := n.toNat) (by omega)
  have hcollision : (s.drawn vx vy n.toNat).hit = true ↔
      ∃ x y, s.SpriteCovers vx vy n.toNat x y ∧ s.cell x y = true :=
    hhit.trans (by simp [State.cell])
  refine ⟨_, exec_drw_of_inRange s vx vy n hrange, fun x y => ⟨hin x y, hout x y⟩, fun h => ?_,
    fun h => ?_, rfl, ((Frame.self.setFb (.head _) _).setReg (.head _) _).setDirty (.tail _ (.head _)) _⟩
  · exact (State.reg_setReg_self _ VF _).trans (congrArg flagByte (hcollision.mpr h))
  · exact (State.reg_setReg_self _ VF _).trans
      (congrArg flagByte (Bool.eq_false_iff.mpr fun hc => h (hcollision.mp hc)))

/-- Settles O45: past memory it is the fatal condition's outcome; with no rows VF and `dirty` are all that is
written. -/
theorem drwPastMemoryFaults : Obligations.DrwPastMemoryFaults := by
  refine fun s vx vy n => ⟨fun hn hpast => ?_, fun hn => ?_⟩
  · exact exec_faults_precisely (fatalCondition_drw_of_pastMemory s vx vy n hn hpast)
  · exact ⟨_, exec_drw_of_noRows s vx vy n hn, State.reg_setReg_self s VF 0, rfl,
      (Frame.self.setReg (.head _) _).setDirty (.head _) _⟩

end Sys2Proof.Machine
end

section
/-! SUPPORT. Keypad queries (46_keypad.md): the key that V[X] names, the first key of the scan of LD Vx,K, its
retry as a whole STEP, and the statements on SKP, SKNP and LD Vx,K. -/

namespace Sys2Proof

/-! ## The fields of a word of format X (R46, R47) -/

theorem fieldP_encodeXNN (p : BitVec 4) (x : Reg) (nn : Byte) : fieldP (encodeXNN p x nn) = p :=
  BitVec.extractLsb'_append_eq_left

theorem fieldNN_encodeXNN (p : BitVec 4) (x : Reg) (nn : Byte) : fieldNN (encodeXNN p x nn) = nn :=
  (BitVec.extractLsb'_append_eq_of_add_le (by decide)).trans BitVec.extractLsb'_append_eq_right

theorem fieldX_encodeXNN (p : BitVec 4) (x : Reg) (nn : Byte) : fieldX (encodeXNN p x nn) = x := by
  have hbits : (encodeXNN p x nn).extractLsb' 8 4 = regBits x :=
    (BitVec.extractLsb'_append_eq_of_add_le (by decide)).trans BitVec.extractLsb'_append_eq_left
  apply Fin.ext
  calc (fieldX (encodeXNN p x nn)).val
    _ = (regBits x).toNat := congrArg BitVec.toNat hbits
    _ = x.val := Nat.mod_eq_of_lt x.isLt

/-- The word of LD Vx,K decodes to LD Vx,K (R50, R53). -/
theorem decode_encode_ldVxK (exact : Bool) (x : Reg) :
    decode exact (encode (.ldVxK x)) = .ok (.ldVxK x) := by
  rw [encode, decode, fieldP_encodeXNN]
  change decodeMisc (encodeXNN 0xF x 0x0A) = _
  rw [decodeMisc, fieldNN_encodeXNN, fieldX_encodeXNN]
  rfl

end Sys2Proof

namespace Sys2Proof.Machine

variable {s : State} {x : Reg} {k : Fin 16}

/-! ## The key that V[X] names (R90, R91) -/

/-- The key SKP and SKNP test: the value of V[X] itself, or under `mask` its low nibble. -/
theorem State.keyNumber_eq_some (h : (s.reg x).toNat = k.val ∨
    (s.params.keyIndexPolicy = .mask ∧ (s.reg x).toNat % 16 = k.val)) : s.keyNumber x = some k := by
  by_cases hsmall : (s.reg x).toNat < 16
  · have hk : (s.reg x).toNat = k.val := h.elim id fun hm => (Nat.mod_eq_of_lt hsmall).symm.trans hm.2
    rw [State.keyNumber_small s hsmall, Option.some_inj]
    exact Fin.ext hk
  · obtain hk | ⟨hmask, hk⟩ := h
    · exact absurd (hk ▸ k.isLt) hsmall
    · simp [State.keyNumber, hsmall, hmask, hk]

theorem State.skipOnKey_of_key (want : Bool) (hk : s.keyNumber x = some k) :
    s.skipOnKey x want = s.skipIf (s.pressed k == want) := by
  rw [State.skipOnKey, hk]

theorem exec_skp_of_key (hk : s.keyNumber x = some k) :
    exec (.skp x) s = .next (s.skipIf (s.pressed k == true)) :=
  congrArg _ (State.skipOnKey_of_key true hk)

theorem exec_sknp_of_key (hk : s.keyNumber x = some k) :
    exec (.sknp x) s = .next (s.skipIf (s.pressed k == false)) :=
  congrArg _ (State.skipOnKey_of_key false hk)

theorem fatalCondition_skp_of_noKey (hbig : (s.reg x).toNat > 15)
    (hpolicy : s.params.keyIndexPolicy = .fault) :
    fatalCondition (.skp x) s = some (.keyIndexOutOfRange, (s.reg x).setWidth 16) :=
  if_pos ⟨hbig, hpolicy⟩

theorem fatalCondition_sknp_of_noKey (hbig : (s.reg x).toNat > 15)
    (hpolicy : s.params.keyIndexPolicy = .fault) :
    fatalCondition (.sknp x) s = some (.keyIndexOutOfRange, (s.reg x).setWidth 16) :=
  if_pos ⟨hbig, hpolicy⟩

/-- Settles O46: with a key named by V[X] each is a skip on that key's flag, the two on opposite values; with
none each is the fatal condition's outcome. -/
theorem keySkips : Obligations.KeySkips := by
  refine fun s x => ⟨fun k hk => ?_, fun hbig hpolicy => ?_⟩
  · have hkey := State.keyNumber_eq_some hk
    refine ⟨_, _, exec_skp_of_key hkey, exec_sknp_of_key hkey, ?_, ?_,
      Frame.self.skipIf (.head _) _, Frame.self.skipIf (.head _) _⟩
    · rw [State.skipIf_pc, beq_true]
    · simp only [State.skipIf_pc, beq_false, Bool.not_eq_true', ← Bool.not_eq_true, ite_not]
  · obtain ⟨t, ht, htReport, htPc, htFrame⟩ :=
      exec_faults_precisely (fatalCondition_skp_of_noKey hbig hpolicy)
    obtain ⟨u, hu, huReport, huPc, huFrame⟩ :=
      exec_faults_precisely (fatalCondition_sknp_of_noKey hbig hpolicy)
    exact ⟨t, u, ht, hu, htReport, huReport.trans htReport.symm, htPc, huPc, htFrame, huFrame⟩

/-! ## The scan of LD Vx,K (R92) -/

/-- The scan is in ascending order: what stands before a key is below it. -/
theorem scanOrder_split_at : ∀ k : Fin 16, k ≠ 0 →
    scanOrder = scanOrder.filter (· < k) ++ k :: scanOrder.filter (k < ·) := by decide

theorem ne_zero_of_mem_scanOrder : ∀ k ∈ scanOrder, k ≠ 0 := by decide

/-- The scan finds the lowest pressed key of 1 to 15. -/
theorem State.firstKey_of_lowest (hk : k ≠ 0) (hpressed : s.pressed k = true)
    (hlowest : ∀ j, j ≠ 0 → j < k → s.pressed j = false) : s.firstKey = some k := by
  refine List.find?_eq_some_iff_append.2 ⟨hpressed, _, _, scanOrder_split_at k hk, fun j hj => ?_⟩
  obtain ⟨hscan, hlt⟩ := List.mem_filter.1 hj
  rw [hlowest j (ne_zero_of_mem_scanOrder j hscan) (of_decide_eq_true hlt), Bool.not_false]

theorem exec_ldVxK_of_firstKey (h : s.firstKey = some k) :
    exec (.ldVxK x) s = .next (s.setReg x (BitVec.ofNat 8 k.val)) := by
  rw [exec, execLdVxK, h]

theorem exec_ldVxK_of_noKey (h : s.firstKey = none) :
    exec (.ldVxK x) s = .next (s.setPc (s.pc - 2)) := by
  rw [exec, execLdVxK, h]

/-- The retry takes back the advance of the fetch, and the advance is all that the fetch wrote (R92 e). -/
theorem State.advance_setPc_sub_two (s : State) : s.advance.setPc (s.advance.pc - 2) = s := by
  have hpc : s.advance.pc - 2 = s.pc := BitVec.add_sub_cancel s.pc 2
  rw [hpc]
  rfl

theorem engineStep_ldVxK_of_noKey (hnone : s.firstKey = none) (hc : s.CanFetch)
    (hw : s.fetchWord s.pc.toNat = encode (.ldVxK x)) : engineStep s = .next s := by
  have hd : decode s.params.zeroFamilyExact (s.fetchWord s.pc.toNat) = .ok (.ldVxK x) :=
    hw ▸ decode_encode_ldVxK _ x
  have hnone' : s.advance.firstKey = none := hnone
  rw [engineStep_execute hc hd, exec_ldVxK_of_noKey hnone', s.advance_setPc_sub_two]

/-- Settles O47: the scan finds the lowest pressed key, or none and the advance of the fetch is taken back. -/
theorem keyWaitTakesTheLowestKeyOrRetries : Obligations.KeyWaitTakesTheLowestKeyOrRetries := by
  refine fun s x => ⟨fun k hk hpressed hlowest => ?_, fun hreleased => ?_⟩
  · have hbyte : (BitVec.ofNat 8 k.val).toNat = k.val := Nat.mod_eq_of_lt (by omega)
    refine ⟨_, exec_ldVxK_of_firstKey (State.firstKey_of_lowest hk hpressed hlowest), ?_,
      Frame.self.setReg (.head _) _⟩
    rw [State.reg_setReg_self, hbyte]
  · have hnone := s.firstKey_none.2 hreleased
    exact ⟨⟨_, exec_ldVxK_of_noKey hnone, rfl, Frame.self.setPc (.head _) _⟩,
      engineStep_ldVxK_of_noKey hnone⟩

end Sys2Proof.Machine
end

section
/-! SUPPORT. Timer transfers (47_timer_io.md): the sound gate in terms of ST as a number, and the statement on
LD Vx,DT, LD DT,Vx and LD ST,Vx. -/

namespace Sys2Proof.Machine

/-- The sound gate is open exactly while ST, as a number, is not 0 (R120). -/
theorem State.soundOn_eq_decide_toNat (s : State) : s.soundOn = decide (s.st.toNat ≠ 0) := by
  have hzero : s.st.toNat = 0 ↔ s.st = 0 := BitVec.toNat_inj (y := 0#8)
  exact decide_eq_decide.2 hzero.not.symm

/-- Settles O48: each is one named update, whose field reads back the byte it was given and whose frame is that
field alone; the gate after LD ST,Vx is read from the ST just written. -/
theorem timerTransfers : Obligations.TimerTransfers :=
  fun s x => ⟨_, _, _, rfl, rfl, rfl, s.reg_setReg_self x s.dt, s.setDt_dt (s.reg x),
    s.setSt_st (s.reg x), (s.setSt (s.reg x)).soundOn_eq_decide_toNat,
    Frame.self.setReg (.head _) _, Frame.self.setDt (.head _) _, Frame.self.setSt (.head _) _⟩

end Sys2Proof.Machine
end

section
/-! SUPPORT. Decoder and encoder (30_encoding.md): the fields of an encoded word, the word rebuilt from its
fields, the rows of R50 as conditions on the fields, and the statements that tie the three together. -/

namespace Sys2Proof

variable {w r : Word} {i : Instr} {p n : BitVec 4} {nn : Byte} {exact : Bool}

/-! ## The fields of an encoded word (R46, R47) -/

/-- Two bit vectors appended, as a number: the lower one is below its own power of two. -/
theorem append_toNat {j k : Nat} (a : BitVec j) (b : BitVec k) :
    (a ++ b).toNat = a.toNat * 2 ^ k + b.toNat := by
  rw [BitVec.toNat_append, ← Nat.shiftLeft_add_eq_or_of_lt b.isLt, Nat.shiftLeft_eq]

theorem regBits_toNat (x : Reg) : (regBits x).toNat = x.val := Nat.mod_eq_of_lt x.isLt

theorem fieldP_encodeNNN (p : BitVec 4) (nnn : BitVec 12) : fieldP (encodeNNN p nnn) = p :=
  BitVec.extractLsb'_append_eq_left

theorem fieldNNN_encodeNNN (p : BitVec 4) (nnn : BitVec 12) : fieldNNN (encodeNNN p nnn) = nnn :=
  BitVec.extractLsb'_append_eq_right

/-! Format XYN is format XNN with Y and N as the byte. -/

theorem fieldP_encodeXYN (p : BitVec 4) (x y : Reg) (n : BitVec 4) : fieldP (encodeXYN p x y n) = p :=
  fieldP_encodeXNN p x (regBits y ++ n)

theorem fieldX_encodeXYN (p : BitVec 4) (x y : Reg) (n : BitVec 4) : fieldX (encodeXYN p x y n) = x :=
  fieldX_encodeXNN p x (regBits y ++ n)

theorem encodeXYN_toNat_mod (p : BitVec 4) (x y : Reg) (n : BitVec 4) :
    (encodeXYN p x y n).toNat % 256 = y.val * 16 + n.toNat := by
  have h : fieldNN (encodeXYN p x y n) = regBits y ++ n := fieldNN_encodeXNN p x (regBits y ++ n)
  rw [← fieldNN_toNat, h, append_toNat, regBits_toNat]
  rfl

theorem fieldY_encodeXYN (p : BitVec 4) (x y : Reg) (n : BitVec 4) : fieldY (encodeXYN p x y n) = y := by
  have h := encodeXYN_toNat_mod p x y n
  apply Fin.ext
  rw [fieldY_val]
  omega

theorem fieldN_encodeXYN (p : BitVec 4) (x y : Reg) (n : BitVec 4) : fieldN (encodeXYN p x y n) = n := by
  have h := encodeXYN_toNat_mod p x y n
  apply BitVec.eq_of_toNat_eq
  rw [fieldN_toNat]
  omega

/-- Settles O14: format by format, the decoder selects on the fields that the encoder put there. -/
theorem decodeOfEncodeIsTheInstruction : Obligations.DecodeOfEncodeIsTheInstruction := by
  intro exact i _
  cases i with
  | cls | ret => cases exact <;> decide
  | jp _ | call _ | ldI _ | jpV0 _ =>
    simp [encode, decode, fieldP_encodeNNN, fieldNNN_encodeNNN]
  | seImm _ _ | sneImm _ _ | ldImm _ _ | addImm _ _ | rnd _ _ =>
    simp [encode, decode, fieldP_encodeXNN, fieldX_encodeXNN, fieldNN_encodeXNN]
  | seReg _ _ | sneReg _ _ | ldReg _ _ | orReg _ _ | andReg _ _ | xorReg _ _ | addReg _ _ | subReg _ _
  | shr _ _ | subnReg _ _ | shl _ _ | drw _ _ _ =>
    simp [encode, decode, decodeFive, decodeAlu, decodeNine, fieldP_encodeXYN, fieldX_encodeXYN,
      fieldY_encodeXYN, fieldN_encodeXYN]
  | skp _ | sknp _ | ldVxDT _ | ldVxK _ | ldDTVx _ | ldSTVx _ | addI _ | ldF _ | ldB _ | ldIVx _
  | ldVxI _ =>
    simp [encode, decode, decodeKey, decodeMisc, fieldP_encodeXNN, fieldX_encodeXNN, fieldNN_encodeXNN]

/-! ## The word rebuilt from its fields (R46, R47) -/

theorem encodeNNN_fields (hp : fieldP w = p) : encodeNNN p (fieldNNN w) = w := by
  subst hp
  apply BitVec.eq_of_toNat_eq
  rw [encodeNNN, append_toNat, fieldP_toNat, fieldNNN_toNat]
  omega

theorem encodeXNN_fields (hp : fieldP w = p) (hn : fieldNN w = nn) : encodeXNN p (fieldX w) nn = w := by
  have hlow : regBits (fieldX w) ++ nn = fieldNNN w := by
    apply BitVec.eq_of_toNat_eq
    rw [append_toNat, regBits_toNat, ← hn, fieldX_val, fieldNN_toNat, fieldNNN_toNat]
    omega
  exact (congrArg (encodeNNN p) hlow).trans (encodeNNN_fields hp)

theorem encodeXYN_fields (hp : fieldP w = p) (hn : fieldN w = n) :
    encodeXYN p (fieldX w) (fieldY w) n = w := by
  have hlow : fieldNN w = regBits (fieldY w) ++ n := by
    apply BitVec.eq_of_toNat_eq
    rw [append_toNat, regBits_toNat, ← hn, fieldY_val, fieldNN_toNat, fieldN_toNat]
    omega
  exact encodeXNN_fields hp hlow

/-! ## What a family decodes to, encoded again (R51 to R53) -/

theorem encode_of_decodeZero_exact (h : decodeZero true w = .ok i) : encode i = w := by
  simp only [decodeZero, if_true] at h
  split at h
  next hw => cases h; exact hw.symm
  split at h
  next hw => cases h; exact hw.symm
  · cases h

theorem encode_of_decodeFive (hp : fieldP w = 0x5#4) (h : decodeFive w = .ok i) : encode i = w := by
  rw [decodeFive] at h
  split at h
  next hn => cases h; exact encodeXYN_fields hp hn
  · cases h

theorem encode_of_decodeNine (hp : fieldP w = 0x9#4) (h : decodeNine w = .ok i) : encode i = w := by
  rw [decodeNine] at h
  split at h
  next hn => cases h; exact encodeXYN_fields hp hn
  · cases h

theorem encode_of_decodeAlu (hp : fieldP w = 0x8#4) (h : decodeAlu w = .ok i) : encode i = w := by
  rw [decodeAlu] at h
  split at h
  case h_10 => cases h
  all_goals rename_i hn; cases h; exact encodeXYN_fields hp hn

theorem encode_of_decodeKey (hp : fieldP w = 0xE#4) (h : decodeKey w = .ok i) : encode i = w := by
  rw [decodeKey] at h
  split at h
  case h_3 => cases h
  all_goals rename_i hn; cases h; exact encodeXNN_fields hp hn

theorem encode_of_decodeMisc (hp : fieldP w = 0xF#4) (h : decodeMisc w = .ok i) : encode i = w := by
  rw [decodeMisc] at h
  split at h
  case h_10 => cases h
  all_goals rename_i hn; cases h; exact encodeXNN_fields hp hn

/-- The 0 family decodes to CLS and RET only (R51). -/
theorem cls_or_ret_of_decodeZero (h : decodeZero exact w = .ok i) : i = .cls ∨ i = .ret := by
  rw [decodeZero] at h
  split_ifs at h
  · cases h; exact .inl rfl
  · cases h; exact .inr rfl
  · split at h
    · cases h; exact .inl rfl
    · cases h; exact .inr rfl
    · cases h

/-- Family by family, the word is rebuilt from its fields; the 0 family is decoded in every bit only under
`ZERO_FAMILY_EXACT` (R51). -/
theorem encode_of_decode (hzero : fieldP w = 0x0#4 → exact = true) (h : decode exact w = .ok i) :
    encode i = w := by
  rw [decode] at h
  split at h
  case h_1 hp => exact encode_of_decodeZero_exact (hzero hp ▸ h)
  case h_6 hp => exact encode_of_decodeFive hp h
  case h_9 hp => exact encode_of_decodeAlu hp h
  case h_10 hp => exact encode_of_decodeNine hp h
  case h_15 hp => exact encode_of_decodeKey hp h
  case h_16 =>
    -- the last branch excludes each of the fifteen lower nibbles
    have hp : fieldP w = 0xF#4 := by simp only [imp_false] at *; bv_omega
    exact encode_of_decodeMisc hp h
  case h_14 hp => cases h; exact encodeXYN_fields hp rfl
  case h_4 hp | h_5 hp | h_7 hp | h_8 hp | h_13 hp => cases h; exact encodeXNN_fields hp rfl
  case h_2 hp | h_3 hp | h_11 hp | h_12 hp => cases h; exact encodeNNN_fields hp

/-- Settles O15: the word is rebuilt from its fields, and the 0 family without `ZERO_FAMILY_EXACT` gives only
the two instructions left out. -/
theorem encodeOfDecodeIsTheWord : Obligations.EncodeOfDecodeIsTheWord := by
  refine fun exact w i h hleft => encode_of_decode (fun hp => hleft.resolve_left fun hi => ?_) h
  rw [decode_of_fieldP_zero exact hp] at h
  exact (cls_or_ret_of_decodeZero h).elim hi.1 hi.2

/-! ## The rows of R50 as conditions on the fields -/

/-- A field that lies inside the mask is read off the masked word. -/
theorem extract_of_and {m : Word} (start len : Nat) (hm : m.extractLsb' start len = BitVec.allOnes len)
    (h : w &&& m = r) : w.extractLsb' start len = r.extractLsb' start len := by
  rw [← h, BitVec.extractLsb'_and, hm, BitVec.and_allOnes]

theorem fieldP_of_op (h : w &&& 0xF000 = r) : fieldP w = fieldP r :=
  extract_of_and 12 4 (by decide) h

theorem fields_of_xy (h : w &&& 0xF00F = r) : fieldP w = fieldP r ∧ fieldN w = fieldN r :=
  ⟨extract_of_and 12 4 (by decide) h, extract_of_and 0 4 (by decide) h⟩

theorem fields_of_x (h : w &&& 0xF0FF = r) : fieldP w = fieldP r ∧ fieldNN w = fieldNN r :=
  ⟨extract_of_and 12 4 (by decide) h, extract_of_and 0 8 (by decide) h⟩

/-! The families with an inner selection (R52, R53). -/

theorem decode_of_fieldP_five (h : fieldP w = 0x5#4) : decode exact w = decodeFive w := by
  simp only [decode, h]

theorem decode_of_fieldP_alu (h : fieldP w = 0x8#4) : decode exact w = decodeAlu w := by
  simp only [decode, h]

theorem decode_of_fieldP_nine (h : fieldP w = 0x9#4) : decode exact w = decodeNine w := by
  simp only [decode, h]

theorem decode_of_fieldP_key (h : fieldP w = 0xE#4) : decode exact w = decodeKey w := by
  simp only [decode, h]

theorem decode_of_fieldP_misc (h : fieldP w = 0xF#4) : decode exact w = decodeMisc w := by
  rw [decode, h]; rfl

theorem OpcodeRow.selects_iff (r : OpcodeRow) (w : Word) :
    r.selects w = true ↔ w &&& r.mask = r.pattern :=
  decide_eq_true_iff

/-- A word that selects an instruction's row decodes to an instruction of the same row (R50). -/
theorem decode_of_selects (h : (opcodeRow exact i).selects w = true) :
    ∃ j, decode exact w = .ok j ∧ opcodeRow exact j = opcodeRow exact i := by
  rw [OpcodeRow.selects_iff] at h
  cases i with
  | cls | ret =>
    cases exact with
    | true =>
      obtain rfl := (BitVec.and_allOnes (x := w)).symm.trans h
      exact ⟨_, by decide, rfl⟩
    | false =>
      simp only [opcodeRow, Bool.false_eq_true, if_false] at h
      obtain ⟨hp, hn⟩ := fields_of_xy h
      apply Exists.intro
      constructor
      · rw [decode_of_fieldP_zero false hp, decodeZero, if_neg Bool.false_ne_true, hn]; rfl
      · rfl
  | jp _ | call _ | ldI _ | jpV0 _ | seImm _ _ | sneImm _ _ | ldImm _ _ | addImm _ _ | rnd _ _
  | drw _ _ _ =>
    simp only [opcodeRow] at h
    have hp := fieldP_of_op h
    apply Exists.intro
    constructor
    · rw [decode, hp]; rfl
    · rfl
  | seReg _ _ =>
    simp only [opcodeRow] at h
    obtain ⟨hp, hn⟩ := fields_of_xy h
    exact ⟨_, (decode_of_fieldP_five hp).trans (if_pos hn), rfl⟩
  | sneReg _ _ =>
    simp only [opcodeRow] at h
    obtain ⟨hp, hn⟩ := fields_of_xy h
    exact ⟨_, (decode_of_fieldP_nine hp).trans (if_pos hn), rfl⟩
  | ldReg _ _ | orReg _ _ | andReg _ _ | xorReg _ _ | addReg _ _ | subReg _ _ | shr _ _ | subnReg _ _
  | shl _ _ =>
    simp only [opcodeRow] at h
    obtain ⟨hp, hn⟩ := fields_of_xy h
    apply Exists.intro
    constructor
    · rw [decode_of_fieldP_alu hp, decodeAlu, hn]; rfl
    · rfl
  | skp _ | sknp _ =>
    simp only [opcodeRow] at h
    obtain ⟨hp, hnn⟩ := fields_of_x h
    apply Exists.intro
    constructor
    · rw [decode_of_fieldP_key hp, decodeKey, hnn]; rfl
    · rfl
  | ldVxDT _ | ldVxK _ | ldDTVx _ | ldSTVx _ | addI _ | ldF _ | ldB _ | ldIVx _ | ldVxI _ =>
    simp only [opcodeRow] at h
    obtain ⟨hp, hnn⟩ := fields_of_x h
    apply Exists.intro
    constructor
    · rw [decode_of_fieldP_misc hp, decodeMisc, hnn]; rfl
    · rfl

/-- An instruction's row is one of the 34 of the opcode map (R50). -/
theorem opcodeRow_mem_opcodeMap (exact : Bool) (i : Instr) : opcodeRow exact i ∈ opcodeMap exact := by
  cases i <;> simp [opcodeMap, rowRepresentatives, opcodeRow]

/-! The families' unknown words are reported as themselves (R54). -/

variable {e : DecodeError}

theorem decodeZero_error (h : decodeZero exact w = .error e) : e = .unknown w := by
  rw [decodeZero] at h
  split_ifs at h
  · cases h; rfl
  · split at h <;> cases h; rfl

theorem decodeFive_error (h : decodeFive w = .error e) : e = .unknown w := by
  rw [decodeFive] at h
  split at h <;> cases h; rfl

theorem decodeAlu_error (h : decodeAlu w = .error e) : e = .unknown w := by
  rw [decodeAlu] at h
  split at h <;> cases h; rfl

theorem decodeNine_error (h : decodeNine w = .error e) : e = .unknown w := by
  rw [decodeNine] at h
  split at h <;> cases h; rfl

theorem decodeKey_error (h : decodeKey w = .error e) : e = .unknown w := by
  rw [decodeKey] at h
  split at h <;> cases h; rfl

theorem decodeMisc_error (h : decodeMisc w = .error e) : e = .unknown w := by
  rw [decodeMisc] at h
  split at h <;> cases h; rfl

theorem decode_error (h : decode exact w = .error e) : e = .unknown w := by
  rw [decode] at h
  split at h
  case h_1 => exact decodeZero_error h
  case h_6 => exact decodeFive_error h
  case h_9 => exact decodeAlu_error h
  case h_10 => exact decodeNine_error h
  case h_15 => exact decodeKey_error h
  case h_16 => exact decodeMisc_error h
  all_goals cases h

/-! ## A word and the row it selects (R50) -/

/-- The word an instruction encodes to selects the instruction's row: the mask keeps the pattern's bits. -/
theorem selects_encode (exact : Bool) (i : Instr) : (opcodeRow exact i).selects (encode i) = true := by
  cases i with
  | cls | ret => cases exact <;> decide
  | jp _ | call _ | ldI _ | jpV0 _ => exact decide_eq_true (Laws.nnn_selects _ _)
  | seImm _ _ | sneImm _ _ | ldImm _ _ | addImm _ _ | rnd _ _ =>
    exact decide_eq_true (Laws.xnn_selects _ _ _)
  | drw _ _ _ => exact decide_eq_true (Laws.xyn_selects _ _ _ _)
  | seReg _ _ | sneReg _ _ | ldReg _ _ | orReg _ _ | andReg _ _ | xorReg _ _ | addReg _ _ | subReg _ _
  | shr _ _ | subnReg _ _ | shl _ _ => exact decide_eq_true (Laws.xy_selects _ _ _ _)
  | skp _ | sknp _ | ldVxDT _ | ldVxK _ | ldDTVx _ | ldSTVx _ | addI _ | ldF _ | ldB _ | ldIVx _
  | ldVxI _ => exact decide_eq_true (Laws.x_selects _ _ _)

/-- The masks of CLS and RET without `ZERO_FAMILY_EXACT` keep P and N (R51). -/
theorem selects_of_decodeZero_inexact (hp : fieldP w = 0x0#4) (h : decodeZero false w = .ok i) :
    (opcodeRow false i).selects w = true := by
  have hmask : w &&& 0xF00F = fieldP w ++ ((0 : BitVec 8) ++ fieldN w) := by
    conv_lhs => rw [← encodeXYN_fields (w := w) rfl rfl]
    exact Laws.xy_selects _ _ _ _
  rw [hp] at hmask
  rw [decodeZero, if_neg Bool.false_ne_true] at h
  split at h
  next hn => cases h; rw [hn] at hmask; exact decide_eq_true hmask
  next hn => cases h; rw [hn] at hmask; exact decide_eq_true hmask
  · cases h

/-- What a word decodes to stands in a row the word selects (R50, R51). -/
theorem selects_of_decode (h : decode exact w = .ok i) : (opcodeRow exact i).selects w = true := by
  by_cases hzero : fieldP w = 0x0#4 → exact = true
  · rw [← encode_of_decode hzero h]
    exact selects_encode exact i
  · obtain ⟨hp, hinexact⟩ := Classical.not_imp.1 hzero
    obtain rfl : exact = false := by simpa using hinexact
    exact selects_of_decodeZero_inexact hp (decode_of_fieldP_zero false hp ▸ h)

/-- Settles O16: a word decodes to an instruction of the row it selects, and where it decodes to none it
selects none. -/
theorem decodeSelectsTheRowOfTheOpcodeMap : Obligations.DecodeSelectsTheRowOfTheOpcodeMap := by
  refine fun exact w =>
    ⟨fun i => selects_of_decode, fun i => decode_of_selects, fun h r hr => ?_, fun h => ?_⟩
  · obtain ⟨i, -, rfl⟩ := List.mem_map.1 hr
    refine Bool.eq_false_iff.2 fun hs => ?_
    obtain ⟨j, hj, -⟩ := decode_of_selects hs
    cases h.symm.trans hj
  · cases hd : decode exact w with
    | error e => rw [decode_error hd]
    | ok i =>
      have hs := h _ (opcodeRow_mem_opcodeMap exact i)
      cases hs.symm.trans (selects_of_decode hd)

/-- Settles O17: the word decodes to one instruction, which stands in both rows. -/
theorem opcodePatternsDoNotOverlap : Obligations.OpcodePatternsDoNotOverlap := by
  refine ⟨fun exact => rfl, fun exact w r r' hr hr' hs hs' => ?_⟩
  obtain ⟨i, -, rfl⟩ := List.mem_map.1 hr
  obtain ⟨i', -, rfl⟩ := List.mem_map.1 hr'
  obtain ⟨j, hj, hrow⟩ := decode_of_selects hs
  obtain ⟨j', hj', hrow'⟩ := decode_of_selects hs'
  cases hj.symm.trans hj'
  exact hrow.symm.trans hrow'

/-- Settles O20: the decoder computes on each word. -/
theorem spelledWordsDecode : Obligations.SpelledWordsDecode := by
  unfold Obligations.SpelledWordsDecode
  decide

end Sys2Proof
end

section
/-! SUPPORT. One STEP and one transaction (30_encoding.md R56, 60_exceptions.md, 70_reset_and_hazards.md):
what each can do, said once, and the statements on faults, the halted state, the transactions of the outside
world and the outputs. -/

namespace Sys2Proof.Machine

variable {s t : State} {i : Instr} {tr : Transaction}

/-! ## What a STEP can do (R56) -/

/-- A STEP does nothing when halted, raises FetchOutOfRange, ignores an unknown word, or executes the
instruction at `pc` past its word. -/
theorem engineStep_cases (h : engineStep s = .next t) :
    (s.halted = true ∧ t = s) ∨
    (s.halted = false ∧ 4095 ≤ s.pc.toNat ∧ t = s.raiseAt s.pc .fetchOutOfRange s.pc) ∨
    (s.CanFetch ∧ wordDefined s.params.zeroFamilyExact (s.fetchWord s.pc.toNat) = false ∧
      t = s.ignoreUnknown (s.fetchWord s.pc.toNat)) ∨
    (s.CanFetch ∧ ∃ i, decode s.params.zeroFamilyExact (s.fetchWord s.pc.toNat) = .ok i ∧
      exec i s.advance = .next t) := by
  obtain ⟨hh, hf⟩ | ⟨hh, hpc, hf⟩ | ⟨hh, hpc, ⟨e, he⟩, hf⟩ | ⟨hh, hpc, i, hd, hf⟩ := fetch_cases s
  all_goals rw [engineStep, hf] at h
  · cases h; exact .inl ⟨hh, rfl⟩
  · cases h; exact .inr (.inl ⟨hh, hpc, rfl⟩)
  · cases h
    obtain rfl := decode_error he
    exact .inr (.inr (.inl ⟨⟨hh, hpc⟩, (decode_unknown_iff _ _).1 he, rfl⟩))
  · exact .inr (.inr (.inr ⟨⟨hh, hpc⟩, i, hd, h⟩))

/-- A word that decodes to an instruction is not one of R54's unknown words. -/
theorem wordDefined_of_decode {exact : Bool} {w : Word} (h : decode exact w = .ok i) :
    wordDefined exact w = true := by
  refine Bool.not_eq_false _ ▸ fun hw => ?_
  cases h.symm.trans ((decode_unknown_iff exact w).2 hw)

/-- Settles O21: the STEP whose turn it is, of the state that has lost it from its schedule. -/
theorem stepRunsTheDecodedInstruction : Obligations.StepRunsTheDecodedInstruction := by
  intro s i _ hturn hc hd
  rw [step, hturn]
  exact engineStep_execute (s := s.turnTaken) hc hd

/-- No transaction touches the schedule or the parameters (log entries 1, 2, 5). -/
theorem transact_schedule_params (h : transact tr s = .next t) :
    t.schedule = s.schedule ∧ t.params = s.params := by
  by_cases hreset : tr = .reset
  · subst hreset; cases h; exact ⟨rfl, rfl⟩
  by_cases hstep : tr = .step
  · subst hstep
    obtain ⟨-, rfl⟩ | ⟨-, -, rfl⟩ | ⟨-, -, rfl⟩ | ⟨-, i, -, hexec⟩ := engineStep_cases h
    · exact ⟨rfl, rfl⟩
    · exact ⟨rfl, rfl⟩
    · exact ⟨rfl, rfl⟩
    · exact ⟨(exec_frame hexec).schedule, (exec_frame hexec).params⟩
  · have F := transact_frame hstep hreset h
    exact ⟨F.schedule, F.params⟩

/-- Settles O23: the two forms of the schedule, and what every transaction keeps. -/
theorem stepTakesTheNextScheduledTransaction : Obligations.StepTakesTheNextScheduledTransaction := by
  refine fun s => ⟨fun tr rest hs => ?_, fun hs => ?_, fun tr t => transact_schedule_params⟩
  · obtain ⟨hturn, htaken⟩ := s.turn_cons hs
    rw [step, hturn, htaken]
  · obtain ⟨hturn, htaken⟩ := s.turn_nil hs
    rw [step, hturn, htaken, transact]

/-! ## Faults and the halted state (R101, R110, R111) -/

/-- Settles O53: a fatal condition's only outcome, the fetch out of range, the frame of an instruction that
meets no condition, and the codes. -/
theorem faultsArePreciseAndExactlyThoseOfTheTable :
    Obligations.FaultsArePreciseAndExactlyThoseOfTheTable :=
  ⟨fun _ _ _ _ => exec_of_fatalCondition, fun _ => engineStep_fetchOutOfRange,
    fun i s _ hf h => (exec_frame_of_noFault hf h).fault (key_fault_notMem_partsWritten s.params i).2, rfl⟩

/-- No transaction but RESET and a STEP that faults writes a fault register (R110, R111). -/
theorem transact_faultReport_of_halted (hh : s.halted = true) (hreset : tr ≠ .reset)
    (h : transact tr s = .next t) : t.faultReport = s.faultReport := by
  by_cases hstep : tr = .step
  · subst hstep
    cases (engineStep_halted hh).symm.trans h; rfl
  · exact (transact_frame hstep hreset h).fault fun hm => by simpa using mem_partsOf hm

/-- Settles O55: a halted block's transactions leave the fault registers, but RESET writes every field. -/
theorem onlyResetLeavesTheHaltedState : Obligations.OnlyResetLeavesTheHaltedState := by
  refine fun s t hh h => ⟨fun hturn => transact_faultReport_of_halted (s := s.turnTaken) hh hturn h,
    fun hturn => ?_⟩
  rw [step, hturn] at h
  cases h
  exact ⟨rfl, rfl⟩

theorem countDown_toNat (b : Byte) : (countDown b).toNat = b.toNat - 1 := by
  rw [countDown]
  split <;> bv_omega

/-- Settles O54: the STEP of a halted block, then one clause for each transaction of the outside world. -/
theorem haltedBlockIgnoresStepsOnly : Obligations.HaltedBlockIgnoresStepsOnly := by
  refine fun s hh => ⟨engineStep_halted hh, fun tr t hreset h => ⟨?_, ?_, ?_, ?_, ?_⟩⟩
  · exact (congrArg Prod.fst (transact_faultReport_of_halted hh hreset h)).trans hh
  · rintro rfl; cases h; exact ⟨countDown_toNat s.dt, countDown_toNat s.st⟩
  · rintro k rfl j; cases h; rfl
  · rintro rfl; cases h; rfl
  · rintro rom rfl; cases h; exact ⟨rfl, fun k => readByte_load_of_lt s⟩

/-! ## The transactions of the outside world (R115 to R119) -/

/-- Settles O56: each timer as a number counts down and stops at 0, and the frame is that of TICK. -/
theorem tickCountsDownAndSaturates : Obligations.TickCountsDownAndSaturates := by
  have hsat (b : Byte) : (countDown b).toNat = if b.toNat > 0 then b.toNat - 1 else 0 := by
    rw [countDown_toNat]; split <;> omega
  exact fun s => ⟨_, rfl, hsat s.dt, hsat s.st,
    transact_frame (tr := .tick) Transaction.noConfusion Transaction.noConfusion rfl⟩

/-- Settles O57: each is one named update, whose frame is that field alone. -/
theorem keysAndFrameAck : Obligations.KeysAndFrameAck :=
  fun s k => ⟨_, _, rfl, rfl, s.pressed_setKeys k, rfl,
    Frame.self.setKeys (.head _) k, Frame.self.setDirty (.head _) false⟩

/-! ## The outputs (R118, R120, R121) -/

/-- ST changes in TICK, RESET or an executed LD ST,Vx only (R17, R28). -/
theorem step_st_changes (h : step s = .next t) (hst : t.st ≠ s.st) :
    s.turn = .tick ∨ s.turn = .reset ∨
      (s.turn = .step ∧
        ∃ x, decode s.params.zeroFamilyExact (s.fetchWord s.pc.toNat) = .ok (.ldSTVx x)) := by
  by_cases hreset : s.turn = .reset
  · exact .inr (.inl hreset)
  by_cases hstep : s.turn = .step
  · refine .inr (.inr ⟨hstep, ?_⟩)
    rw [step, hstep] at h
    obtain ⟨-, rfl⟩ | ⟨-, -, rfl⟩ | ⟨-, -, rfl⟩ | ⟨-, i, hd, hexec⟩ := engineStep_cases h
    · exact absurd rfl hst
    · exact absurd rfl hst
    · exact absurd rfl hst
    by_contra hx
    have hother : ∀ x, i ≠ .ldSTVx x := fun x e => hx ⟨x, e ▸ hd⟩
    exact hst ((exec_frame hexec).st (notMem_append_faultParts _ (st_notMem_partsWritten _ hother)))
  · by_contra htick
    exact hst ((transact_frame hstep hreset h).st fun hm => htick (.inl (by simpa using mem_partsOf hm)))

/-- Settles O59: the gate is a function of ST, which changes in the listed transactions only. -/
theorem soundGateFollowsSt : Obligations.SoundGateFollowsSt := by
  refine ⟨fun s => ?_, fun s t h hsound => ?_⟩
  · rw [s.soundOn_eq_decide_toNat, decide_eq_true_eq]
  · have hst : t.st ≠ s.st := fun e => hsound (by rw [State.soundOn, State.soundOn, e])
    exact ⟨hst, step_st_changes h hst⟩

/-- No instruction emits an event (R121). -/
theorem exec_diag (h : exec i s = .next t) : t.diag = s.diag :=
  (exec_frame h).diag (notMem_append_faultParts _ (by cases i <;> simp [partsWritten]))

/-- Settles O60: of the four outcomes of a STEP only the unknown word emits, and no other transaction does. -/
theorem diagnosticsAreUnknownWordsInOrder : Obligations.DiagnosticsAreUnknownWordsInOrder := by
  intro s t h
  by_cases hstep : s.turn = .step
  · rw [step, hstep] at h
    obtain ⟨hh, rfl⟩ | ⟨hh, hpc, rfl⟩ | ⟨hc, hw, rfl⟩ | ⟨hc, i, hd, hexec⟩ := engineStep_cases h
    · exact ⟨fun ⟨_, hc, _⟩ => absurd (hh.symm.trans hc.1) (by decide), fun _ => rfl⟩
    · exact ⟨fun ⟨_, hc, _⟩ => absurd hc.2 (Nat.not_le_of_gt (Nat.lt_succ_of_le hpc)), fun _ => rfl⟩
    · exact ⟨fun _ => rfl, fun hno => absurd ⟨hstep, hc, hw⟩ hno⟩
    · exact ⟨fun ⟨_, _, hw⟩ => absurd ((wordDefined_of_decode hd).symm.trans hw) (by decide),
        fun _ => (exec_diag hexec).trans rfl⟩
  · refine ⟨fun hall => absurd hall.1 hstep, fun _ => ?_⟩
    by_cases hreset : s.turn = .reset
    · rw [step, hreset] at h; cases h; rfl
    · exact (transact_frame hstep hreset h).diag fun hm => by simpa using mem_partsOf hm

end Sys2Proof.Machine
end

section
/-! SUPPORT. Font lookup, BCD and block transfer (48_font_bcd_block.md): the digits and the glyph address as
numbers, what the block transfers leave in memory, in the registers and in I, and the statements on the four
instructions and on the fetch of stored registers. -/

namespace Sys2Proof.Machine

variable {s t : State} {x : Reg}

/-! ## The bytes stored and the address formed (R96, R97) -/

/-- A stored byte reads back at its place (R38, R41). -/
theorem readByte_storeBytes_of_lt (s : State) (a : Nat) {bs : List Byte} {k : Nat} (hk : k < bs.length) :
    (s.storeBytes a bs).readByte (a + k) = bs.getD k 0 := by
  rw [State.readByte_storeBytes, if_pos ⟨by omega, by omega⟩, Nat.add_sub_cancel_left]

/-- The three digits of a byte, each itself a byte (R97). -/
theorem decimalDigits_toNat (v : Byte) :
    ((decimalDigits v).getD 0 0).toNat = v.toNat / 100 ∧
    ((decimalDigits v).getD 1 0).toNat = v.toNat / 10 % 10 ∧
    ((decimalDigits v).getD 2 0).toNat = v.toNat % 10 := by
  have hv : v.toNat < 256 := v.isLt
  exact ⟨Nat.mod_eq_of_lt (by omega), Nat.mod_eq_of_lt (by omega), Nat.mod_eq_of_lt (by omega)⟩

theorem glyphAddress_toNat (v : Byte) : (glyphAddress v).toNat = 0x050 + 5 * (v.toNat % 16) := by
  have hlow : (v &&& 0x0F).toNat = v.toNat % 16 :=
    (BitVec.toNat_and v 0x0F).trans (Nat.and_two_pow_sub_one_eq_mod v.toNat 4)
  rw [glyphAddress, hlow]
  exact Nat.mod_eq_of_lt (show 0x050 + 5 * (v.toNat % 16) < 65536 by omega)

/-- Settles O49: the address as a number, from the low nibble of V[X]. -/
theorem fontLookup : Obligations.FontLookup := by
  intro s x
  have hi := glyphAddress_toNat (s.reg x)
  exact ⟨_, rfl, hi, by rw [State.setI_i]; omega, by rw [State.setI_i]; omega,
    Frame.self.setI (.head _) _⟩

/-! ## Data accesses in range and past memory (R39, R106) -/

theorem dataInRange_succ {n : Nat} (h : s.i.toNat + n ≤ 4095) : s.dataInRange (n + 1) = true :=
  (s.dataInRange_iff _).2 (.inr (show s.i.toNat + (n + 1) ≤ 4096 by omega))

theorem dataFault_of_pastMemory {n : Nat} (h : s.i.toNat + n > 4095) :
    (if n + 1 ≥ 1 ∧ s.i.toNat + (n + 1) - 1 > 4095 then
      some (FaultKind.memIndexOutOfRange, BitVec.ofNat 16 (max s.i.toNat 4096)) else none) =
      some (.memIndexOutOfRange, BitVec.ofNat 16 (max s.i.toNat 4096)) :=
  if_pos ⟨by omega, by omega⟩

theorem noDataFault_inRange {n : Nat} (hf : (if n + 1 ≥ 1 ∧ s.i.toNat + (n + 1) - 1 > 4095 then
      some (FaultKind.memIndexOutOfRange, BitVec.ofNat 16 (max s.i.toNat 4096)) else none) = none) :
    s.i.toNat + n ≤ 4095 := by
  by_contra hpast
  cases (dataFault_of_pastMemory (Nat.lt_of_not_le hpast)).symm.trans hf

theorem exec_ldB_of_inRange (h : s.i.toNat + 2 ≤ 4095) :
    exec (.ldB x) s = .next (s.storeBytes s.dataBase (decimalDigits (s.reg x))) :=
  congrArg _ (s.withData_inRange (dataInRange_succ h))

/-- Settles O50: in range each digit reads back at its place, past memory it is the fatal outcome. -/
theorem bcdStoresThreeDigits : Obligations.BcdStoresThreeDigits := by
  refine fun s x => ⟨fun hr => ?_, fun hpast =>
    exec_faults_precisely (i := .ldB x) (dataFault_of_pastMemory hpast)⟩
  have hread {k : Nat} (hk : k < 3) :=
    readByte_storeBytes_of_lt s s.dataBase (bs := decimalDigits (s.reg x)) hk
  obtain ⟨h100, h10, h1⟩ := decimalDigits_toNat (s.reg x)
  exact ⟨_, exec_ldB_of_inRange hr, (congrArg _ (hread (k := 0) (by decide))).trans h100,
    (congrArg _ (hread (k := 1) (by decide))).trans h10, (congrArg _ (hread (k := 2) (by decide))).trans h1,
    Frame.self.storeBytes fun a ha hb => ⟨ha, hb⟩⟩

/-! ## Block transfer (R98, R99) -/

theorem exec_ldIVx_of_inRange (h : s.i.toNat + x.val ≤ 4095) : exec (.ldIVx x) s =
    .next ((s.storeBytes s.dataBase (s.regsUpTo x)).blockAdvance (x.val + 1)) :=
  congrArg _ (s.withData_inRange (dataInRange_succ h))

theorem exec_ldVxI_of_inRange (h : s.i.toNat + x.val ≤ 4095) : exec (.ldVxI x) s =
    .next ((s.setRegs (s.loadedRegs x s.dataBase)).blockAdvance (x.val + 1)) :=
  congrArg _ (s.withData_inRange (dataInRange_succ h))

theorem blockAdvance_i_toNat (s : State) (n : Nat) : (s.blockAdvance n).i.toNat =
    if s.params.blockIncrementsI then (s.i.toNat + n) % 65536 else s.i.toNat := by
  rw [State.blockAdvance_eq, State.setI_i, apply_ite BitVec.toNat, BitVec.toNat_add, BitVec.toNat_ofNat,
    Nat.add_mod_mod]

theorem blockAdvance_readByte (s : State) (n a : Nat) : (s.blockAdvance n).readByte a = s.readByte a := by
  rw [State.blockAdvance_eq]; rfl

theorem blockAdvance_reg (s : State) (n : Nat) (q : Reg) : (s.blockAdvance n).reg q = s.reg q := by
  rw [State.blockAdvance_eq]; rfl

/-- Settles O51: in range each register reads back at its place, past memory it is the fatal outcome. -/
theorem blockStore : Obligations.BlockStore := by
  refine fun s x =>
    ⟨fun hr => ⟨_, exec_ldIVx_of_inRange hr, fun q hq => ?_, blockAdvance_i_toNat _ _, ?_⟩,
    fun hpast => exec_faults_precisely (i := .ldIVx x) (dataFault_of_pastMemory hpast)⟩
  · have hlen : q.val < (s.regsUpTo x).length := by rw [s.regsUpTo_length]; omega
    rw [blockAdvance_readByte]
    exact (readByte_storeBytes_of_lt s _ hlen).trans (s.regsUpTo_getD x q.val hq)
  · exact (Frame.self.storeBytes fun a ha hb => ⟨ha, s.regsUpTo_length x ▸ hb⟩).blockAdvance (.head _) _

/-- Settles O52: in range V0 to VX hold the bytes and the rest are kept, past memory it is the fatal outcome. -/
theorem blockLoad : Obligations.BlockLoad := by
  refine fun s x => ⟨fun hr => ⟨_, exec_ldVxI_of_inRange hr, fun q hq => ?_, fun q hq => ?_,
    blockAdvance_i_toNat _ _, ?_⟩,
    fun hpast => exec_faults_precisely (i := .ldVxI x) (dataFault_of_pastMemory hpast)⟩
  · exact (blockAdvance_reg _ _ q).trans ((s.reg_loadedRegs x q _).trans (if_pos hq))
  · exact (blockAdvance_reg _ _ q).trans ((s.reg_loadedRegs x q _).trans (if_neg (Nat.not_le.2 hq)))
  · exact (Frame.self.setRegs fun q hq => absurd (List.mem_finRange q) hq).blockAdvance (.head _) _

/-- Settles O12: the bytes at I and I + 1 are V0 and V1, by the statement on the block store. -/
theorem storedRegistersAreFetchedAsAWord : Obligations.StoredRegistersAreFetchedAsAWord := by
  intro s t x hx hr h
  obtain ⟨u, hu, hread, -, -⟩ := (blockStore s x).1 hr
  cases hu.symm.trans h
  have h0 : t.readByte s.i.toNat = s.reg 0 := hread 0 (Nat.zero_le _)
  have h1 : t.readByte (s.i.toNat + 1) = s.reg 1 := hread 1 hx
  rw [fetchWord_toNat, h0, h1]

end Sys2Proof.Machine
end

section
/-! SUPPORT. The invariant (10_state.md section 8, R13, R16, R27): what RET and CALL can do, where an
instruction can leave `pc`, `sp`, the stack and memory, and the statements that every step keeps the invariant
and that none stops under it. -/

namespace Sys2Proof.Machine

variable {s t : State} {i : Instr} {x : Reg} {tr : Transaction}

/-! ## RET and CALL, every path (R61, R63) -/

theorem exec_ret_of_noEntry (hsp : s.sp.toNat > 16) : exec .ret s = .fault (.noSuchStackEntry s.sp) := by
  have hne : s.sp ≠ 0 := by bv_omega
  rw [exec, execRet, if_neg hne, dif_neg (by omega)]

theorem exec_call_of_noEntry (nnn : BitVec 12) (hsp : s.sp.toNat > 16) :
    exec (.call nnn) s = .fault (.noSuchStackEntry s.sp) := by
  have hne : s.sp ≠ 16 := by bv_omega
  rw [exec, execCall, if_neg hne, dif_neg (by omega)]

/-- Settles O28: past the two tests on `sp` only the stop is left. -/
theorem callAndRetStopWhereNoEntryExists : Obligations.CallAndRetStopWhereNoEntryExists :=
  fun _ nnn hsp => ⟨exec_call_of_noEntry nnn hsp, exec_ret_of_noEntry hsp⟩

/-- With `sp` at most 16 RET meets its fatal condition or pops. -/
theorem exec_ret_total (hsp : s.sp.toNat ≤ 16) : exec .ret s = .next (s.raise .stackUnderflow 0) ∨
    ∃ k : Fin 16, s.sp.toNat = k.val + 1 ∧
      exec .ret s = .next ((s.setSp (s.sp - 1)).setPc (s.stackEntry k)) := by
  by_cases h0 : s.sp = 0
  · exact .inl (exec_of_fatalCondition (fatalCondition_ret h0))
  · have hk : s.sp.toNat = s.sp.toNat - 1 + 1 := by bv_omega
    exact .inr ⟨⟨s.sp.toNat - 1, by omega⟩, hk, exec_ret_of_nonempty hk⟩

/-- With `sp` at most 16 CALL meets its fatal condition or pushes. -/
theorem exec_call_total (nnn : BitVec 12) (hsp : s.sp.toNat ≤ 16) :
    exec (.call nnn) s = .next (s.raise .stackOverflow 16) ∨
    ∃ k : Fin 16, s.sp.toNat = k.val ∧
      exec (.call nnn) s = .next (((s.setStackEntry k s.pc).setSp (s.sp + 1)).setPc (addrOf nnn)) := by
  by_cases h16 : s.sp = 16
  · exact .inl (exec_of_fatalCondition (fatalCondition_call nnn h16))
  · have hk : s.sp.toNat < 16 := by bv_omega
    exact .inr ⟨⟨s.sp.toNat, hk⟩, rfl, exec_call_of_notFull nnn rfl⟩

/-! ## What the absence of a fatal condition says (R102) -/

theorem noFault_drw_inRange {y : Reg} {n : BitVec 4} (hf : fatalCondition (.drw x y n) s = none) :
    n.toNat = 0 ∨ s.i.toNat + n.toNat - 1 ≤ 4095 := by
  by_contra hpast
  obtain ⟨hn, hp⟩ := not_or.1 hpast
  have hfault := fatalCondition_drw_of_pastMemory s x y n (Nat.pos_of_ne_zero hn) (Nat.lt_of_not_le hp)
  cases hfault.symm.trans hf

theorem noKeyFault_key (hf : (if s.keyNumber x = none then
    some (FaultKind.keyIndexOutOfRange, widen (s.reg x)) else none) = none) :
    ∃ k, s.keyNumber x = some k := by
  cases hk : s.keyNumber x with
  | some k => exact ⟨k, rfl⟩
  | none => rw [if_pos hk] at hf; cases hf

theorem noFault_ret_entry (hf : fatalCondition .ret s = none) (h : exec .ret s = .next t) :
    ∃ k : Fin 16, s.sp.toNat = k.val + 1 := by
  have h0 : s.sp ≠ 0 := fun e => by cases (fatalCondition_ret e).symm.trans hf
  have h16 : s.sp.toNat ≤ 16 := by
    by_contra hbig
    cases (exec_ret_of_noEntry (Nat.lt_of_not_le hbig)).symm.trans h
  exact ⟨⟨s.sp.toNat - 1, by omega⟩, by bv_omega⟩

theorem noFault_call_entry {nnn : BitVec 12} (hf : fatalCondition (.call nnn) s = none)
    (h : exec (.call nnn) s = .next t) : ∃ k : Fin 16, s.sp.toNat = k.val := by
  have h16 : s.sp ≠ 16 := fun e => by cases (fatalCondition_call nnn e).symm.trans hf
  have hle : s.sp.toNat ≤ 16 := by
    by_contra hbig
    cases (exec_call_of_noEntry nnn (Nat.lt_of_not_le hbig)).symm.trans h
  exact ⟨⟨s.sp.toNat, by bv_omega⟩, rfl⟩

/-! ## Where an instruction leaves `pc`, `sp`, the stack and memory (R13, R15, R16, R30) -/

theorem skipIf_pc_le (hpc : s.pc.toNat ≤ 4096) (c : Bool) : (s.skipIf c).pc.toNat ≤ 0x10FE := by
  rw [State.skipIf_pc]
  split <;> bv_omega

/-- Every jump goes to an address immediate, to one plus a byte, or to a return address; a skip goes at most 4
past the instruction; a retry and a fault go back to it (R13). -/
theorem exec_pc_le (hs : s.Inv) (hlo : 2 ≤ s.pc.toNat) (hhi : s.pc.toNat ≤ 4096)
    (h : exec i s = .next t) : t.pc.toNat ≤ 0x10FE := by
  have hback : (s.pc - 2).toNat ≤ 0x10FE := by bv_omega
  have haddr (nnn : BitVec 12) : (addrOf nnn).toNat ≤ 0x10FE := by rw [addrOf_toNat]; omega
  cases hf : fatalCondition i s with
  | some c => cases (exec_of_fatalCondition hf).symm.trans h; exact hback
  | none =>
    cases i with
    | ret =>
      obtain he | ⟨k, -, he⟩ := exec_ret_total hs.spLegal <;> cases he.symm.trans h
      · exact hback
      · exact (hs.stackBound k).trans (by decide)
    | call nnn =>
      obtain he | ⟨k, -, he⟩ := exec_call_total nnn hs.spLegal <;> cases he.symm.trans h
      · exact hback
      · exact haddr nnn
    | jp nnn => cases h; exact haddr nnn
    | jpV0 nnn => cases h; exact (addrOf_add_widen_toNat nnn _).trans_le (addr_add_byte_le nnn _)
    | seImm _ _ | sneImm _ _ | seReg _ _ | sneReg _ _ => cases h; exact skipIf_pc_le hhi _
    | skp x | sknp x =>
      cases h
      obtain ⟨k, -, he⟩ | ⟨-, he⟩ := s.skipOnKey_cases x _ <;> rw [he]
      · exact skipIf_pc_le hhi _
      · exact hback
    | ldVxK x =>
      simp only [exec, execLdVxK] at h
      split at h <;> cases h
      · exact hs.pcBound
      · exact hback
    | _ => rw [(exec_frame_of_noFault hf h).pc (by simp [partsWritten])]; exact hs.pcBound

/-- Only CALL and RET move `sp`: RET down from above 0, CALL up from below 16 (R16, R61, R63). -/
theorem exec_sp_le (hsp : s.sp.toNat ≤ 16) (h : exec i s = .next t) : t.sp.toNat ≤ 16 := by
  cases i with
  | ret =>
    obtain he | ⟨k, hk, he⟩ := exec_ret_total hsp <;> cases he.symm.trans h
    · exact hsp
    · have hpop : (s.sp - 1).toNat = k.val := by bv_omega
      exact hpop.trans_le k.isLt.le
  | call nnn =>
    obtain he | ⟨k, hk, he⟩ := exec_call_total nnn hsp <;> cases he.symm.trans h
    · exact hsp
    · have hpush : (s.sp + 1).toNat = k.val + 1 := by bv_omega
      exact hpush.trans_le k.isLt
  | _ => rw [(exec_frame h).sp (notMem_append_faultParts _ (by simp [partsWritten]))]; exact hsp

/-- A stack entry is one already there, or the `npc` of the CALL that pushed it (R15, R63). -/
theorem exec_stackEntry (hsp : s.sp.toNat ≤ 16) (h : exec i s = .next t) (k : Fin 16) :
    t.stackEntry k = s.stackEntry k ∨ t.stackEntry k = s.pc := by
  cases i with
  | call nnn =>
    obtain he | ⟨j, -, he⟩ := exec_call_total nnn hsp <;> cases he.symm.trans h
    · exact .inl rfl
    · have hentry := s.stackEntry_setStackEntry j k s.pc
      by_cases hkj : k = j
      · exact .inr (hentry.trans (if_pos hkj))
      · exact .inl (hentry.trans (if_neg hkj))
  | _ => exact .inl ((exec_frame h).stack (notMem_append_faultParts _ (by simp [partsWritten])) k)

/-- Memory is what it was, or it has a store at I that passed the range check (R28, R38, R39). -/
theorem exec_mem_cases (h : exec i s = .next t) : t.mem = s.mem ∨
    ∃ bs, s.dataBase + bs.length ≤ 4096 ∧ t.mem = Memory.store s.params s.mem s.dataBase bs := by
  cases hf : fatalCondition i s with
  | some c => cases (exec_of_fatalCondition hf).symm.trans h; exact .inl rfl
  | none =>
    cases i with
    | ldB x =>
      have hr := noDataFault_inRange (n := 2) hf
      cases (exec_ldB_of_inRange hr).symm.trans h
      exact .inr ⟨decimalDigits (s.reg x), Nat.succ_le_succ hr, rfl⟩
    | ldIVx x =>
      have hr := noDataFault_inRange (n := x.val) hf
      cases (exec_ldIVx_of_inRange hr).symm.trans h
      rw [State.blockAdvance_eq]
      exact .inr ⟨s.regsUpTo x, s.regsUpTo_length x ▸ Nat.succ_le_succ hr, rfl⟩
    | ldVxI x =>
      cases (exec_ldVxI_of_inRange (noDataFault_inRange (n := x.val) hf)).symm.trans h
      rw [State.blockAdvance_eq]
      exact .inl rfl
    | drw x y n =>
      cases (exec_drw_of_inRange s x y n (noFault_drw_inRange hf)).symm.trans h
      exact .inl rfl
    | ret =>
      obtain ⟨k, hk⟩ := noFault_ret_entry hf h
      cases (exec_ret_of_nonempty hk).symm.trans h
      exact .inl rfl
    | call nnn =>
      obtain ⟨k, hk⟩ := noFault_call_entry hf h
      cases (exec_call_of_notFull nnn hk).symm.trans h
      exact .inl rfl
    | ldVxK x =>
      simp only [exec, execLdVxK] at h
      split at h <;> cases h <;> exact .inl rfl
    | skp x | sknp x =>
      cases h
      obtain ⟨k, -, he⟩ | ⟨-, he⟩ := s.skipOnKey_cases x _ <;> rw [he]
      · rw [State.skipIf_eq]; exact .inl rfl
      · exact .inl rfl
    | seImm _ _ | sneImm _ _ | seReg _ _ | sneReg _ _ => cases h; rw [State.skipIf_eq]; exact .inl rfl
    | addReg _ _ | subReg _ _ | shr _ _ | subnReg _ _ | shl _ _ =>
      cases h; rw [State.writeResultFlag_eq]; exact .inl rfl
    | _ => cases h; exact .inl rfl

theorem exec_memWf (hm : Memory.wf s.params s.mem = true) (h : exec i s = .next t) :
    Memory.wf t.params t.mem = true := by
  rw [(exec_frame h).params]
  obtain hmem | ⟨bs, hlen, hmem⟩ := exec_mem_cases h <;> rw [hmem]
  · exact hm
  · exact Memory.wf_store s.params bs hlen hm

/-! ## The invariant, step by step -/

/-- The invariant carries over a change whose frame leaves the fault registers, given its clauses on memory,
`sp`, `pc` and the stack. -/
theorem State.Inv.of_frame {r : List Reg} {p : List Part} {m : Nat → Prop} (hs : s.Inv)
    (F : Frame s t r p m) (hfault : Part.fault ∉ p) (hmem : Memory.wf s.params t.mem = true)
    (hsp : t.sp.toNat ≤ 16) (hpc : t.pc.toNat ≤ 0x10FE)
    (hstack : ∀ k, (t.stackEntry k).toNat ≤ 4096) : t.Inv := by
  have hreport := F.fault hfault
  simp only [State.faultReport, Prod.mk.injEq] at hreport
  obtain ⟨hh, hc, hp, hn⟩ := hreport
  exact ⟨F.params ▸ hmem, hsp, hpc, hstack, hh ▸ hc ▸ hs.haltedIffCause, hc ▸ hs.causeUsed,
    hh ▸ hp ▸ hn ▸ hs.noFaultInfo⟩

/-- A fault keeps the invariant: `halted` and a cause are set together (R101, R102). -/
theorem State.Inv.raiseAt (hs : s.Inv) {a : Word} (ha : a.toNat ≤ 0x10FE) (f : FaultKind) (n : Word) :
    (s.raiseAt a f n).Inv where
  memWf := hs.memWf
  spLegal := hs.spLegal
  pcBound := ha
  stackBound := hs.stackBound
  haltedIffCause := by cases f <;> simp [causeCode]
  causeUsed := by cases f <;> simp [causeCode]
  noFaultInfo := Bool.noConfusion

theorem State.Inv.setPc (hs : s.Inv) {w : Word} (hw : w.toNat ≤ 0x10FE) : (s.setPc w).Inv :=
  ⟨hs.memWf, hs.spLegal, hw, hs.stackBound, hs.haltedIffCause, hs.causeUsed, hs.noFaultInfo⟩

/-- An instruction fetched from memory keeps the invariant; `npc` is then 2 to 4096 (R13, R35). -/
theorem exec_inv (hs : s.Inv) (hlo : 2 ≤ s.pc.toNat) (hhi : s.pc.toNat ≤ 4096)
    (h : exec i s = .next t) : t.Inv := by
  have hpc := exec_pc_le hs hlo hhi h
  cases hf : fatalCondition i s with
  | some c =>
    cases (exec_of_fatalCondition hf).symm.trans h
    exact hs.raiseAt hpc _ _
  | none =>
    have F := exec_frame_of_noFault hf h
    refine hs.of_frame F (key_fault_notMem_partsWritten _ i).2 (F.params ▸ exec_memWf hs.memWf h)
      (exec_sp_le hs.spLegal h) hpc fun k => ?_
    obtain hk | hk := exec_stackEntry hs.spLegal h k <;> rw [hk]
    · exact hs.stackBound k
    · exact hhi

theorem engineStep_inv (hs : s.Inv) (h : engineStep s = .next t) : t.Inv := by
  have hadvance (hc : s.CanFetch) : s.advance.pc.toNat = s.pc.toNat + 2 := advance_pc_toNat hc.2
  obtain ⟨-, rfl⟩ | ⟨-, -, rfl⟩ | ⟨hc, -, rfl⟩ | ⟨hc, i, -, hexec⟩ := engineStep_cases h
  · exact hs
  · exact hs.raiseAt hs.pcBound _ _
  · have hpc := hadvance hc
    have := hc.2
    exact hs.of_frame (ignoreUnknown_frame s _) (by decide) hs.memWf hs.spLegal
      (hpc.trans_le (by omega)) hs.stackBound
  · have hpc := hadvance hc
    have := hc.2
    exact exec_inv (s := s.advance) (hs.setPc (hpc.trans_le (by omega))) (by omega) (by omega) hexec

theorem doReset_inv (s : State) : s.doReset.Inv where
  memWf := rfl
  spLegal := Nat.zero_le 16
  pcBound := Nat.zero_le 0x10FE
  stackBound _ := (congrArg BitVec.toNat (Vector.getElem_replicate _)).trans_le (Nat.zero_le 4096)
  haltedIffCause := ⟨Bool.noConfusion, fun h => absurd rfl h⟩
  causeUsed := Nat.zero_le 5
  noFaultInfo _ := ⟨rfl, rfl⟩

/-- Settles O5: every clause is read off the reset values. -/
theorem resetSatisfiesTheInvariant : Obligations.ResetSatisfiesTheInvariant :=
  ⟨doReset_inv State.reset, doReset_inv⟩

theorem load_inv (hs : s.Inv) (rom : List Byte) : (s.load rom).Inv := by
  refine hs.of_frame (load_frame s rom) (by decide) ?_ hs.spLegal (by decide : (0x200 : Word).toNat ≤ _)
    hs.stackBound
  refine Memory.wf_store s.params _ ?_ hs.memWf
  calc 0x200 + (rom.take 3584).length
    _ ≤ 0x200 + 3584 := Nat.add_le_add_left (List.length_take_le 3584 rom) _
    _ ≤ 4096 := by decide

theorem transact_inv (hs : s.Inv) (h : transact tr s = .next t) : t.Inv := by
  cases tr with
  | step => exact engineStep_inv hs h
  | reset => cases h; exact doReset_inv s
  | load rom => cases h; exact load_inv hs rom
  | tick | keys k | frameAck =>
    cases h
    exact ⟨hs.memWf, hs.spLegal, hs.pcBound, hs.stackBound, hs.haltedIffCause, hs.causeUsed,
      hs.noFaultInfo⟩

/-- Settles O6: taking the turn off the schedule changes no part of the invariant, and every transaction keeps
it. -/
theorem everyStepKeepsTheInvariant : Obligations.EveryStepKeepsTheInvariant := by
  intro s t hs h
  have htaken : s.turnTaken.Inv :=
    ⟨hs.memWf, hs.spLegal, hs.pcBound, hs.stackBound, hs.haltedIffCause, hs.causeUsed, hs.noFaultInfo⟩
  exact transact_inv htaken h

/-! ## No step stops (R100, R101, R110) -/

theorem exec_total (hsp : s.sp.toNat ≤ 16) (i : Instr) : ∃ t, exec i s = .next t := by
  cases i with
  | ret => obtain he | ⟨k, -, he⟩ := exec_ret_total hsp <;> exact ⟨_, he⟩
  | call nnn => obtain he | ⟨k, -, he⟩ := exec_call_total nnn hsp <;> exact ⟨_, he⟩
  | ldVxK x =>
    cases hk : s.firstKey with
    | some k => exact ⟨_, exec_ldVxK_of_firstKey hk⟩
    | none => exact ⟨_, exec_ldVxK_of_noKey hk⟩
  | _ => exact ⟨_, rfl⟩

theorem engineStep_total (hsp : s.sp.toNat ≤ 16) : ∃ t, engineStep s = .next t := by
  rw [engineStep]
  obtain ⟨-, hf⟩ | ⟨-, -, hf⟩ | ⟨-, -, -, hf⟩ | ⟨-, -, i, -, hf⟩ := fetch_cases s <;> rw [hf]
  · exact ⟨_, rfl⟩
  · exact ⟨_, rfl⟩
  · exact ⟨_, rfl⟩
  · exact exec_total (s := s.advance) hsp i

theorem step_total (hsp : s.sp.toNat ≤ 16) : ∃ t, step s = .next t := by
  rw [step]
  cases s.turn with
  | step => exact engineStep_total (s := s.turnTaken) hsp
  | _ => exact ⟨_, rfl⟩

theorem run_succ_of_step {n : Nat} (h : step s = .next t) : core.run (n + 1) s = core.run n t := by
  have h' : core.step s = .next t := h
  simp only [Host.Core.run, h']

/-- Settles O7: with `sp` at most 16 every transaction answers a next state, and the invariant, kept by each step,
says so of every state of the run. -/
theorem noStepStopsUnderTheInvariant : Obligations.NoStepStopsUnderTheInvariant := by
  refine ⟨fun s => step_total, fun s n => ?_⟩
  induction n generalizing s with
  | zero => exact fun hs => ⟨s, rfl, hs⟩
  | succ n ih =>
    intro hs
    obtain ⟨t, ht⟩ := step_total hs.spLegal
    obtain ⟨u, hu, hinv⟩ := ih t (everyStepKeepsTheInvariant s t hs ht)
    exact ⟨u, (run_succ_of_step ht).trans hu, hinv⟩

end Sys2Proof.Machine
end

section
/-! SUPPORT. The font after RESET, and LOAD (10_state.md R21, 70_reset_and_hazards.md R126 to R128): each
glyph row at its address, what LOAD copies, and the first fetch after it. -/

namespace Sys2Proof.Machine

variable {s t u : State} {i : Instr}

/-! ## The font table (R21) -/

/-- Row `j` of glyph `g` stands at 0x050 + 5g + j in memory after RESET. -/
theorem resetByte_font (p : Params) (g : Fin 16) (j : Fin 5) :
    resetByte p (0x050 + 5 * g.val + j.val) = (glyphOf p g)[j.val] := by
  have hk : 0x050 + 5 * g.val + j.val - 0x050 = 5 * g.val + j.val := by omega
  have hg : (5 * g.val + j.val) / 5 = g.val := by omega
  have hj : (5 * g.val + j.val) % 5 = j.val := by omega
  rw [resetByte, if_pos (by omega), hk, fontByte, dif_pos (by omega)]
  simp only [hg, hj]

/-- Settles O2: each glyph row at its address; glyph 0 and the default table are then read off row by row. -/
theorem fontTableAfterReset : Obligations.FontTableAfterReset := by
  refine ⟨fun s => resetByte_font s.params, fun s j => ?_, by decide⟩
  have h0 := resetByte_font s.params 0 j
  exact h0.trans (by fin_cases j <;> rfl)

/-! ## LOAD and the first fetch after it (R126 to R128) -/

/-- Settles O3: each copied byte reads back at its place, and the frame is that of LOAD. -/
theorem loadCopiesTruncatedRomAndNothingElse : Obligations.LoadCopiesTruncatedRomAndNothingElse :=
  fun s rom => ⟨_, rfl, rfl, fun _ => readByte_load_of_lt s, load_frame s rom⟩

/-- A STEP that is not halted and has its word in range ends its fetch at `pc` + 2, whether the word is known
or not (R34, R54). -/
theorem fetch_advances (hc : s.CanFetch) :
    (∃ i, fetch s = .execute i s.advance) ∨ ∃ w, fetch s = .done (s.ignoreUnknown w) := by
  obtain ⟨hh : s.halted = false, hpc⟩ := hc
  obtain ⟨hh', -⟩ | ⟨-, hpc', -⟩ | ⟨-, -, -, hf⟩ | ⟨-, -, i, -, hf⟩ := fetch_cases s
  · cases hh.symm.trans hh'
  · omega
  · exact .inr ⟨_, hf⟩
  · exact .inl ⟨i, hf⟩

/-- Settles O4: the ROM's two bytes stand at `pc`, and the fetch there is neither halted nor out of range. -/
theorem firstFetchAfterLoadIsFirstTwoRomBytes : Obligations.FirstFetchAfterLoadIsFirstTwoRomBytes := by
  intro s b0 b1 rest
  have h0 : (s.doReset.load (b0 :: b1 :: rest)).readByte 0x200 = b0 :=
    readByte_load_doReset s _ (k := 0) (by decide)
  have h1 : (s.doReset.load (b0 :: b1 :: rest)).readByte (0x200 + 1) = b1 :=
    readByte_load_doReset s _ (k := 1) (by decide)
  have hword := fetchWord_toNat (s.doReset.load (b0 :: b1 :: rest)) 0x200
  rw [h0, h1] at hword
  have hc : (s.doReset.load (b0 :: b1 :: rest)).CanFetch := ⟨rfl, (by decide : 0x200 + 1 ≤ 4095)⟩
  refine ⟨_, rfl, hword, ?_⟩
  obtain ⟨i, hf⟩ | ⟨w, hf⟩ := fetch_advances hc
  · exact .inl ⟨i, _, hf, rfl⟩
  · exact .inr ⟨_, hf, rfl⟩

end Sys2Proof.Machine
end

section
/-! SUPPORT. Noninterference (10_state.md R12, R17 to R19): who changes VF, who consumes a random byte, and
that no instruction reads ST, `dirty` or a fault register. -/

namespace Sys2Proof.Machine

variable {s t : State} {i : Instr} {x : Reg}

/-! ## VF and the random source (R12, R122) -/

/-- Settles O9: VF is among the registers that the instruction's row of R28 lists. -/
theorem vfChangesOnlyAsFlagOrAsDestination : Obligations.VfChangesOnlyAsFlagOrAsDestination := by
  intro i s t h hvf
  have hwritten : VF ∈ regsWritten i := by
    by_contra hno
    exact hvf ((exec_frame h).regs VF hno)
  cases i with
  | ldVxI x =>
    have hle : VF ≤ x := by simpa [regsWritten] using hwritten
    obtain rfl : x = VF := le_antisymm (Fin.le_last x) hle
    simp
  | _ => simp_all [regsWritten]

theorem rnd_notMem_partsWritten (p : Params) (hr : ∀ x nn, i ≠ .rnd x nn) :
    Part.rnd ∉ partsWritten p i := by
  cases i <;> simp_all [partsWritten]

theorem exec_keeps_rnd (hr : ∀ x nn, i ≠ .rnd x nn) (h : exec i s = .next t) :
    t.rndIn = s.rndIn ∧ t.rndDraws = s.rndDraws :=
  (exec_frame h).rnd (notMem_append_faultParts _ (rnd_notMem_partsWritten _ hr))

/-- Settles O42: of the outcomes of a STEP only an executed RND takes a byte, and it takes one. -/
theorem onlyRndConsumesRandomBytes : Obligations.OnlyRndConsumesRandomBytes := by
  refine ⟨fun i s t h hr => exec_keeps_rnd hr h, fun s t h hdraws => ?_⟩
  obtain ⟨-, rfl⟩ | ⟨-, -, rfl⟩ | ⟨-, -, rfl⟩ | ⟨-, i, hd, hexec⟩ := engineStep_cases h
  · exact absurd rfl hdraws
  · exact absurd rfl hdraws
  · exact absurd rfl hdraws
  by_cases hr : ∃ x nn, i = .rnd x nn
  · obtain ⟨x, nn, rfl⟩ := hr
    cases hexec
    exact ⟨rfl, x, nn, hd⟩
  · exact absurd (exec_keeps_rnd (fun x nn e => hr ⟨x, nn, e⟩) hexec).2 hdraws

theorem rndNext_of_cons {b : Byte} {rest : List Byte} (h : s.rndIn = b :: rest) : s.rndNext = b := by
  rw [State.rndNext, h]

theorem rndNext_of_nil (h : s.rndIn = []) : s.rndNext = Config.rndByte s.rndDraws := by
  rw [State.rndNext, h]

/-- Settles O41: the byte is the head of the stream or the free value, and the mask clears what NN clears. -/
theorem rndMasksOneRandomByte : Obligations.RndMasksOneRandomByte := by
  intro s x nn
  have hreg := s.rndConsumed.reg_setReg_self x (s.rndNext &&& nn)
  refine ⟨_, rfl, fun b rest hin => ⟨?_, ?_⟩, fun hin => ⟨?_, ?_⟩, rfl, fun k hk => ?_,
    (Frame.self.rndConsumed (.head _)).setReg (.head _) _⟩
  · rw [hreg, rndNext_of_cons hin]
  · exact congrArg List.tail hin
  · rw [hreg, rndNext_of_nil hin]
  · exact congrArg List.tail hin
  · rw [hreg, BitVec.getLsbD_and, hk, Bool.and_false]

/-! ## What no instruction reads (R17 to R19) -/

/-- `u` is `t` but for ST, `dirty` and the fault registers. -/
def AgreeButUnread (u t : State) : Prop :=
  { u with
    st := t.st, dirty := t.dirty, halted := t.halted, faultCause := t.faultCause,
    faultPc := t.faultPc, faultInfo := t.faultInfo } = t

/-- `s` with other values in ST, `dirty` and the fault registers. -/
def State.withUnread (s : State) (st : Byte) (dirty halted : Bool) (c : BitVec 3) (p n : Word) : State :=
  { s with
    st := st, dirty := dirty, halted := halted, faultCause := c, faultPc := p, faultInfo := n }

section Unread

variable {st : Byte} {dirty halted : Bool} {c : BitVec 3} {p n : Word}

theorem skipIf_withUnread (b : Bool) :
    AgreeButUnread ((s.withUnread st dirty halted c p n).skipIf b) (s.skipIf b) := by
  cases b <;> rfl

theorem writeResultFlag_withUnread (r f : Byte) :
    AgreeButUnread ((s.withUnread st dirty halted c p n).writeResultFlag x r f)
      (s.writeResultFlag x r f) := by
  have hlast : (s.withUnread st dirty halted c p n).params.vfLast = s.params.vfLast := rfl
  rw [State.writeResultFlag, State.writeResultFlag, hlast]
  split <;> rfl

theorem blockAdvance_withUnread (m : Nat) :
    AgreeButUnread ((s.withUnread st dirty halted c p n).blockAdvance m) (s.blockAdvance m) := by
  rw [State.blockAdvance_eq, State.blockAdvance_eq]; rfl

/-- An instruction run with other values there meets the same condition, takes the same path and writes the
same values, ST, `dirty` and the fault registers apart. -/
theorem exec_withUnread (h : exec i s = .next t) :
    ∃ u, exec i (s.withUnread st dirty halted c p n) = .next u ∧ AgreeButUnread u t := by
  cases hf : fatalCondition i s with
  | some _ =>
    have hfu : fatalCondition i (s.withUnread st dirty halted c p n) = fatalCondition i s := by
      cases i <;> rfl
    cases (exec_of_fatalCondition hf).symm.trans h
    exact ⟨_, exec_of_fatalCondition (hfu.trans hf), rfl⟩
  | none =>
    cases i with
    | ret =>
      obtain ⟨k, hk⟩ := noFault_ret_entry hf h
      cases (exec_ret_of_nonempty hk).symm.trans h
      exact ⟨_, exec_ret_of_nonempty hk, rfl⟩
    | call nnn =>
      obtain ⟨k, hk⟩ := noFault_call_entry hf h
      cases (exec_call_of_notFull nnn hk).symm.trans h
      exact ⟨_, exec_call_of_notFull nnn hk, rfl⟩
    | skp x =>
      obtain ⟨k, hk⟩ := noKeyFault_key (fatalCondition_skp s x ▸ hf)
      cases (exec_skp_of_key hk).symm.trans h
      exact ⟨_, exec_skp_of_key hk, skipIf_withUnread _⟩
    | sknp x =>
      obtain ⟨k, hk⟩ := noKeyFault_key (fatalCondition_sknp s x ▸ hf)
      cases (exec_sknp_of_key hk).symm.trans h
      exact ⟨_, exec_sknp_of_key hk, skipIf_withUnread _⟩
    | ldVxK x =>
      cases hk : s.firstKey with
      | some k =>
        cases (exec_ldVxK_of_firstKey hk).symm.trans h
        exact ⟨_, exec_ldVxK_of_firstKey hk, rfl⟩
      | none =>
        cases (exec_ldVxK_of_noKey hk).symm.trans h
        exact ⟨_, exec_ldVxK_of_noKey hk, rfl⟩
    | drw x y n =>
      have hr := noFault_drw_inRange hf
      cases (exec_drw_of_inRange s x y n hr).symm.trans h
      exact ⟨_, exec_drw_of_inRange _ x y n hr, rfl⟩
    | ldB x =>
      have hr := noDataFault_inRange (n := 2) hf
      cases (exec_ldB_of_inRange hr).symm.trans h
      exact ⟨_, exec_ldB_of_inRange hr, rfl⟩
    | ldIVx x =>
      have hr := noDataFault_inRange (n := x.val) hf
      cases (exec_ldIVx_of_inRange hr).symm.trans h
      exact ⟨_, exec_ldIVx_of_inRange hr, blockAdvance_withUnread (s := s.storeBytes _ _) _⟩
    | ldVxI x =>
      have hr := noDataFault_inRange (n := x.val) hf
      cases (exec_ldVxI_of_inRange hr).symm.trans h
      exact ⟨_, exec_ldVxI_of_inRange hr, blockAdvance_withUnread (s := s.setRegs _) _⟩
    | seImm _ _ | sneImm _ _ | seReg _ _ | sneReg _ _ =>
      cases h; exact ⟨_, rfl, skipIf_withUnread _⟩
    | addReg _ _ | subReg _ _ | shr _ _ | subnReg _ _ | shl _ _ =>
      cases h; exact ⟨_, rfl, writeResultFlag_withUnread _ _⟩
    | _ => cases h; exact ⟨_, rfl, rfl⟩

end Unread

/-- Settles O10: the second state is the first with other values in the parts that nothing reads. -/
theorem noInstructionReadsSoundDirtyOrFaults : Obligations.NoInstructionReadsSoundDirtyOrFaults :=
  fun _ _ _ _ _ _ _ _ _ h => exec_withUnread h

end Sys2Proof.Machine
end

section
/-! SUPPORT. The derived properties (95_test_vectors.md S4 and S6, the table of final VF in 43_alu.md, R118):
a return after a call, the final VF when X is 15, the frame output, and a sprite drawn twice. -/

namespace Sys2Proof.Machine

variable {s t u : State}

/-! ## CALL then RET (S4) -/

/-- A frame that names `pc` and `sp` may leave them out where both came back to what they were. -/
theorem Frame.of_pc_sp_restored {r : List Reg} {m : Nat → Prop} (h : Frame s t r [.pc, .sp, .stack] m)
    (hpc : t.pc = s.pc) (hsp : t.sp = s.sp) : Frame s t r [.stack] m where
  regs := h.regs
  pc _ := hpc
  i _ := h.i (by decide)
  sp _ := hsp
  stack hq := absurd (.head _) hq
  dt _ := h.dt (by decide)
  st _ := h.st (by decide)
  dirty _ := h.dirty (by decide)
  key _ := h.key (by decide)
  fb _ := h.fb (by decide)
  fault _ := h.fault (by decide)
  rnd _ := h.rnd (by decide)
  diag _ := h.diag (by decide)
  params := h.params
  schedule := h.schedule
  memory := h.memory

/-- Settles O29: the pop takes back what the push stored, so `pc` and `sp` are restored and the stack alone
differs. -/
theorem retAfterCallReturns : Obligations.RetAfterCallReturns := by
  intro s t nnn npc hsp h
  obtain ⟨t', hcall, hspt, hentry, -, -, Fcall⟩ :=
    (callPushesOrOverflows s nnn).2 ⟨s.sp.toNat, hsp⟩ rfl
  cases hcall.symm.trans h
  obtain ⟨u, hret, hspu, hpcu, Fret⟩ :=
    (retPopsOrUnderflows { t with pc := npc }).2 ⟨s.sp.toNat, hsp⟩ hspt
  have hpc : u.pc = s.pc := hpcu.trans hentry
  have hback : u.sp = s.sp := BitVec.eq_of_toNat_eq hspu
  have F : Frame s u [] [.pc, .sp, .stack] noBytes :=
    (Fcall.setPc (.head _) npc).trans (Fret.mono (by simp) (by simp) fun _ => id)
  exact ⟨u, hret, hpc, hback, F.of_pc_sp_restored hpc hback⟩

/-! ## The final VF when X is 15 (R82) -/

/-- With X = 15 VF keeps the flag, or the result when `VF_LAST` is false (R70). -/
theorem vf_writeResultFlag_vf (s : State) {r f : Byte} {rn fn : Nat} (hr : r.toNat = rn) (hf : f.toNat = fn) :
    ((s.writeResultFlag VF r f).reg VF).toNat = if s.params.vfLast then fn else rn :=
  (s.num_reg_writeResultFlag VF BitVec.toNat hr hf).2 rfl

/-- Settles O38: the five results and flags as numbers, of which VF keeps the later; with Y = 15 the operands are
equal. -/
theorem finalVfWhenXIsFifteen : Obligations.FinalVfWhenXIsFifteen := by
  rintro s y _ _ rfl rfl hshift
  have hop : s.shiftOperand VF y = s.reg VF := by rw [s.shiftOperand_eq, hshift]; rfl
  have hadd := vf_writeResultFlag_vf s (sumByte_toNat (s.reg VF) (s.reg y))
    (carryFlag_toNat (s.reg VF) (s.reg y))
  have hsub := vf_writeResultFlag_vf s (differenceByte_toNat (s.reg VF) (s.reg y))
    (notBorrowFlag_toNat (s.reg VF) (s.reg y))
  have hsubn := vf_writeResultFlag_vf s (differenceByte_toNat (s.reg y) (s.reg VF))
    (notBorrowFlag_toNat (s.reg y) (s.reg VF))
  have hshr := vf_writeResultFlag_vf s (shiftRightOne_toNat (s.reg VF)) (lowBitFlag_toNat (s.reg VF))
  have hshl := vf_writeResultFlag_vf s (shiftLeftOne_toNat (s.reg VF)) (highBitFlag_toNat (s.reg VF))
  refine ⟨_, _, _, _, _, rfl, rfl, rfl, rfl, rfl, fun hlast => ?_, fun hlast => ?_⟩
  · simp only [hlast, if_true] at hadd hsub hsubn hshr hshl
    rw [hop]
    refine ⟨fun _ => ⟨hadd, hsub, hsubn⟩, fun hy => ?_, hshr, hshl⟩
    subst hy
    exact ⟨hadd.trans (if_congr (by omega) rfl rfl), hsub.trans (if_pos le_rfl),
      hsubn.trans (if_pos le_rfl)⟩
  · simp only [hlast, Bool.false_eq_true, if_false] at hadd hsub hsubn hshr hshl
    rw [hop]
    exact ⟨hadd, hsub, hsubn, hshr, hshl⟩

/-! ## The frame output (R22, R118) -/

/-- Byte `k` of the frame output is the cell in column `k` modulo 64 of row `k` div 64. -/
def State.frameByte (s : State) (k : Fin (32 * 64)) : Byte :=
  if s.cell ⟨k.val % 64, by omega⟩ ⟨k.val / 64, by omega⟩ then 1 else 0

theorem frameByte_mk (s : State) (x : Fin 64) (y : Fin 32) (h : 64 * y.val + x.val < 32 * 64) :
    s.frameByte ⟨64 * y.val + x.val, h⟩ = if s.cell x y then 1 else 0 := by
  have hx : (64 * y.val + x.val) % 64 = x.val := by omega
  have hy : (64 * y.val + x.val) / 64 = y.val := by omega
  simp only [State.frameByte, hx, hy]

/-- Row after row, the frame output is one list of 32 · 64 bytes. -/
theorem frame_eq_ofFn (s : State) : s.frame = List.ofFn s.frameByte := by
  rw [List.ofFn_mul, State.frame, List.flatMap_def, List.ofFn_eq_map]
  refine congrArg List.flatten (List.map_congr_left fun y _ => ?_)
  rw [List.ofFn_eq_map]
  refine List.map_congr_left fun x _ => ?_
  simp only [Nat.mul_comm y.val 64]
  exact (frameByte_mk s x y _).symm

/-- Settles O58: the frame output is one list of 2048 bytes, and byte 64 y + x is the cell (x, y). -/
theorem frameOutputIsRowMajor : Obligations.FrameOutputIsRowMajor := by
  intro s
  rw [frame_eq_ofFn]
  refine ⟨List.length_ofFn, fun x y => ?_⟩
  have hk : 64 * y.val + x.val < 32 * 64 := by omega
  rw [List.getD_eq_getElem _ _ (by rwa [List.length_ofFn]), List.getElem_ofFn]
  exact frameByte_mk s x y hk

/-! ## The same sprite twice (S6) -/

theorem byte_ne_zero_iff (b : Byte) : b ≠ 0 ↔ ∃ c < 8, b.toNat / 2 ^ (7 - c) % 2 = 1 := by
  constructor
  · contrapose!
    intro hbits
    apply BitVec.eq_of_getLsbD_eq
    intro k hk
    have hk7 : 7 - (7 - k) = k := by omega
    have hbit := mt (spriteBit_iff b (7 - k)).1 (hbits (7 - k) (by omega))
    rw [spriteBit, hk7] at hbit
    simpa using hbit
  · rintro ⟨c, -, hbit⟩ rfl
    simp at hbit

/-- A sprite covers some cell exactly when it has a set bit at all (R87). -/
theorem exists_spriteCovers_iff (s : State) (vx vy : Reg) (n : Nat) :
    (∃ x y, s.SpriteCovers vx vy n x y) ↔ ∃ r < n, s.readByte (s.i.toNat + r) ≠ 0 := by
  simp only [byte_ne_zero_iff]
  constructor
  · rintro ⟨x, y, r, hr, c, hc, -, -, hbit⟩
    exact ⟨r, hr, c, hc, hbit⟩
  · rintro ⟨r, hr, c, hc, hbit⟩
    exact ⟨column (s.reg vx) c, row (s.reg vy) r, r, hr, c, hc, rfl, rfl, hbit⟩

/-- DRW moves neither the place nor the bytes of its sprite, unless X or Y is 15. -/
theorem spriteCovers_congr {vx vy : Reg} {n : Nat} (hvx : vx ≠ VF) (hvy : vy ≠ VF)
    (F : Frame s t [VF] [.fb, .dirty] noBytes) (x : Fin 64) (y : Fin 32) :
    t.SpriteCovers vx vy n x y ↔ s.SpriteCovers vx vy n x y := by
  have hi : t.i = s.i := F.i (by decide)
  have hmem (a : Nat) : t.readByte a = s.readByte a := F.memory a id
  simp only [State.SpriteCovers, F.regs vx (by simpa using hvx), F.regs vy (by simpa using hvy), hi, hmem]

/-- Settles O44: both draws invert the same cells; on a clear screen the second collides wherever the sprite has a
set bit. -/
theorem drawingTwiceRestoresTheDisplay : Obligations.DrawingTwiceRestoresTheDisplay := by
  intro s t vx vy n hvx hvy hrange h
  obtain ⟨t', hdraw, hcell, -, hmiss, -, F⟩ := drwInvertsTheSpriteAndReportsCollision s vx vy n hrange
  cases hdraw.symm.trans h
  have hcovers := spriteCovers_congr (n := n.toNat) hvx hvy F
  have hi : t.i = s.i := F.i (by decide)
  obtain ⟨u, hagain, hcell', hhit', hmiss', -, -⟩ :=
    drwInvertsTheSpriteAndReportsCollision t vx vy n (hi ▸ hrange)
  simp only [hcovers] at hcell' hhit' hmiss'
  refine ⟨u, hagain, fun x y => ?_, fun hclear => ⟨hmiss ?_, ?_⟩⟩
  · by_cases hc : s.SpriteCovers vx vy n.toNat x y
    · rw [(hcell' x y).1 hc, (hcell x y).1 hc, Bool.not_not]
    · rw [(hcell' x y).2 hc, (hcell x y).2 hc]
  · rintro ⟨x, y, -, hset⟩
    cases (hclear x y).symm.trans hset
  · rw [← exists_spriteCovers_iff s vx vy]
    constructor
    · intro hone
      by_contra hnone
      have hzero := hmiss' fun ⟨x, y, hc, _⟩ => hnone ⟨x, y, hc⟩
      cases hzero.symm.trans hone
    · rintro ⟨x, y, hc⟩
      refine hhit' ⟨x, y, hc, ?_⟩
      rw [(hcell x y).1 hc, hclear, Bool.not_false]

end Sys2Proof.Machine
end
